-- ==== Sys2Proof/Word.lean ====
section
/-! DEFINITION. The widths the spec works with: registers of 32 bits (10_state.md R22), bytes of PBUF
(20_memory.md R60) and 16-bit wire fields (30_encoding.md R95). All values are unsigned (00_scope.md R8). -/

namespace Sys2Proof

/-- The value of one register, and the data of one bus transaction. -/
abbrev Word := BitVec 32

/-- One 16-bit field or one word of a checksum. -/
abbrev Half := BitVec 16

/-- One byte of PBUF. -/
abbrev Byte := BitVec 8

end Sys2Proof
end

