-- ==== Sys2Proof/Config.lean ====
section
/-! DEFINITION. The implementation parameters of 00_scope.md R7 and the free values.
BUF_SIZE stands in State (`State.bufsz`, log entry 1): this file holds its default, and WellFormed.lean its constraint. LAT has no
constant, because the model has no time (93_implementation_defined.md U2, log entry 4). -/

namespace Sys2Proof.Config

/-- The default of BUF_SIZE, 65536 (00_scope.md R7), as the 17 bits that BUFSZ shows (10_state.md R41). -/
def bufSizeDefault : BitVec 17 := 0x10000

/-- PBUF_INIT: `pbufInit e i` is byte i of PBUF after reset number e, until it is written. FREE VALUE: the spec leaves
it unspecified and asks that nothing be claimed of it (70_reset_and_hazards.md R231, log entry 2). -/
opaque pbufInit : Nat → Nat → Byte

/-- BLOCK_BASE: the host address of window offset 0. OPEN, the platform's (00_scope.md R7, 20_memory.md R61,
93_implementation_defined.md U3, log entry 8). -/
opaque blockBase : Nat

end Sys2Proof.Config
end

