-- ==== Sys2Proof/Syntax.lean ====
section
/-! DEFINITION. The command set of 30_encoding.md R91: one constructor for each row of spec/opcode_table.json. A command
has no operand fields (30_encoding.md R90), so no constructor has arguments. -/

namespace Sys2Proof

/-- The six commands. -/
inductive Instr where
  /-- NOP, 40_dispatch.md R117. -/
  | nop
  /-- ENCODE, 41_encode.md R130. -/
  | encode
  /-- DECODE, 42_decode.md R150. -/
  | decode
  /-- CHECKSUM, 43_checksum.md R185. -/
  | checksum
  /-- PACK, 41_encode.md R134. -/
  | pack
  /-- ENCODE_AM, 41_encode.md R136. -/
  | encodeAm
  deriving DecidableEq, Repr

end Sys2Proof
end

