-- ==== Sys2Proof/WellFormed.lean ====
section
/-! DEFINITION. What makes a term well formed. A command has no operand (30_encoding.md R90), so every `Instr` is well
formed; what can be ill formed is the parameter BUF_SIZE (00_scope.md R7), and a command WORD, whose check stands with the
decoder (`cmdWellFormed`, Decode.lean). -/

namespace Sys2Proof

/-- Every command is well formed: it carries no operand that could be out of range. -/
def Instr.wellFormed (i : Instr) : Bool :=
  match i with
  | .nop => true
  | .encode => true
  | .decode => true
  | .checksum => true
  | .pack => true
  | .encodeAm => true

/-- The three checks on BUF_SIZE (00_scope.md R7): at least 28, at most 65536, a multiple of 4. -/
def Config.bufSizeOk (n : Nat) : Bool := decide (28 ≤ n) && decide (n ≤ 65536) && decide (n % 4 = 0)

end Sys2Proof
end

