-- ==== Sys2Proof/Decode.lean ====
section
/-! DEFINITION. Decoding of a command word, total on every 32-bit word (30_encoding.md R92), and the encoder, written
from the opcode map (30_encoding.md R91). A command is the 32-bit VALUE the host writes to CMD (20_memory.md R78): it is
not stored in a memory of bytes, so no byte order enters (log entry 20). -/

namespace Sys2Proof

/-- OP, bits 3:0 of a command word (30_encoding.md R90). -/
def cmdOp (w : Word) : BitVec 4 := w.extractLsb' 0 4

/-- RSV, bits 31:4 of a command word (30_encoding.md R90). -/
def cmdRsv (w : Word) : BitVec 28 := w.extractLsb' 4 28

/-- The reserved field is zero (30_encoding.md R90: "reserved; must be 0"). -/
def cmdRsvZero (w : Word) : Bool := cmdRsv w == 0

/-- The opcode is one of 0x0 to 0x5 (30_encoding.md R91). -/
def cmdOpDefined (w : Word) : Bool := decide ((cmdOp w).toNat ≤ 5)

/-- The word is a legal command word (30_encoding.md R92). -/
def cmdWellFormed (w : Word) : Bool := cmdRsvZero w && cmdOpDefined w

/-- Why a word is no command (30_encoding.md R93). -/
inductive DecodeError where
  /-- RSV is not zero. -/
  | reservedBits (rsv : BitVec 28)
  /-- RSV is zero and OP is one of the reserved opcodes 0x6 to 0xF. -/
  | reservedOpcode (op : BitVec 4)
  deriving DecidableEq, Repr

/-- The opcode map, read as the OP field's value (30_encoding.md R91). -/
def decodeOp (op : BitVec 4) : Except DecodeError Instr :=
  match op.toNat with
  | 0 => .ok .nop
  | 1 => .ok .encode
  | 2 => .ok .decode
  | 3 => .ok .checksum
  | 4 => .ok .pack
  | 5 => .ok .encodeAm
  | _ => .error (.reservedOpcode op)

/-- "if w[31:4] = 0 and w[3:0] <= 5 then the command of rule R91 with OP = w[3:0] else ILLEGAL" (30_encoding.md R92). -/
def decodeWord (w : Word) : Except DecodeError Instr :=
  if cmdRsvZero w then decodeOp (cmdOp w) else .error (.reservedBits (cmdRsv w))

/-- The command word of each command (30_encoding.md R91, column "command word"). -/
def encode (i : Instr) : Word :=
  match i with
  | .nop => 0x00000000
  | .encode => 0x00000001
  | .decode => 0x00000002
  | .checksum => 0x00000003
  | .pack => 0x00000004
  | .encodeAm => 0x00000005

/-- The word of an instruction given as its low `nbits` bits: every higher bit is 0. A command is one 32-bit word
(30_encoding.md R90). -/
def tableWord (nbits w : Nat) : Word := BitVec.ofNat 32 (w % 2 ^ nbits)

/-- The instruction that the decoder reads from the word that spec/opcode_table.json numbers. -/
def decodeTableWord (nbits w : Nat) : Option Instr :=
  match decodeWord (tableWord nbits w) with
  | .ok i => some i
  | .error _ => none

end Sys2Proof
end

