-- ==== Sys2Proof/Machine/Bus.lean ====
section
/-! DEFINITION. What the outside world can do to the block: bus transactions (20_memory.md R63, R80) on the window of
20_memory.md R61, and the reset pin; and the register map (10_state.md R22). -/

namespace Sys2Proof.Machine

/-- The twenty registers, by name (10_state.md R22). -/
inductive Reg where
  | cmd | status | config | len | base | txh0 | txh1 | mask | csum
  | rxIp0 | rxIp1 | rxSrc | rxDst | rxIc0 | rxIc1 | rxPloff | rxPllen | rxMask | rxClass | bufsz
  deriving DecidableEq, Repr

/-- The offset of a register in the register window (10_state.md R22). -/
def Reg.offset (r : Reg) : Nat :=
  match r with
  | .cmd => 0x00
  | .status => 0x04
  | .config => 0x08
  | .len => 0x0C
  | .base => 0x10
  | .txh0 => 0x14
  | .txh1 => 0x18
  | .mask => 0x1C
  | .csum => 0x20
  | .rxIp0 => 0x24
  | .rxIp1 => 0x28
  | .rxSrc => 0x2C
  | .rxDst => 0x30
  | .rxIc0 => 0x34
  | .rxIc1 => 0x38
  | .rxPloff => 0x3C
  | .rxPllen => 0x40
  | .rxMask => 0x44
  | .rxClass => 0x48
  | .bufsz => 0x4C

/-- The register at an offset of the register window; every other offset is unmapped (10_state.md R22, 20_memory.md
R67: above 0x4C, or not a multiple of 4). -/
def Reg.ofOffset (o : Nat) : Option Reg :=
  match o with
  | 0x00 => some .cmd
  | 0x04 => some .status
  | 0x08 => some .config
  | 0x0C => some .len
  | 0x10 => some .base
  | 0x14 => some .txh0
  | 0x18 => some .txh1
  | 0x1C => some .mask
  | 0x20 => some .csum
  | 0x24 => some .rxIp0
  | 0x28 => some .rxIp1
  | 0x2C => some .rxSrc
  | 0x30 => some .rxDst
  | 0x34 => some .rxIc0
  | 0x38 => some .rxIc1
  | 0x3C => some .rxPloff
  | 0x40 => some .rxPllen
  | 0x44 => some .rxMask
  | 0x48 => some .rxClass
  | 0x4C => some .bufsz
  | _ => none

/-- The access column "RO" of 10_state.md R22: registers whose writes are ignored. (STATUS is mixed: its W1C bits take
part in a write.) -/
def Reg.isReadOnly (r : Reg) : Bool :=
  match r with
  | .cmd | .status | .config | .len | .base | .txh0 | .txh1 | .mask => false
  | .csum | .rxIp0 | .rxIp1 | .rxSrc | .rxDst | .rxIc0 | .rxIc1 => true
  | .rxPloff | .rxPllen | .rxMask | .rxClass | .bufsz => true

/-- The operand registers (10_state.md R26). -/
def Reg.isOperand (r : Reg) : Bool :=
  match r with
  | .len | .base | .txh0 | .txh1 | .mask => true
  | .cmd | .status | .config | .csum | .rxIp0 | .rxIp1 | .rxSrc | .rxDst | .rxIc0 | .rxIc1 => false
  | .rxPloff | .rxPllen | .rxMask | .rxClass | .bufsz => false

/-- The direction of a transaction (20_memory.md R63). -/
inductive Dir where
  | read
  | write
  deriving DecidableEq, Repr

/-- The widths a transaction may have (20_memory.md R63). -/
inductive Width where
  | w1
  | w2
  | w4
  deriving DecidableEq, Repr

/-- The number of bytes of a width. -/
def Width.bytes (n : Width) : Nat :=
  match n with
  | .w1 => 1
  | .w2 => 2
  | .w4 => 4

/-- The code of a width on the port size[1:0] (20_memory.md R80). -/
def Width.code (n : Width) : BitVec 2 :=
  match n with
  | .w1 => 0
  | .w2 => 1
  | .w4 => 2

/-- The width that a code of the port size[1:0] names; code 3 is the invalid width (20_memory.md R80). -/
def Width.ofCode (c : BitVec 2) : Option Width :=
  match c.toNat with
  | 0 => some .w1
  | 1 => some .w2
  | 2 => some .w4
  | _ => none

/-- One host transaction, as the ports of 20_memory.md R80 carry it: we, addr[16:0], size[1:0], wdata[31:0]. -/
structure Txn where
  dir : Dir
  addr : BitVec 17
  size : BitVec 2
  wdata : Word
  deriving DecidableEq, Repr

/-- The host's read of n bytes at window offset o. -/
def Txn.readAt (o : BitVec 17) (n : Width) : Txn := ⟨.read, o, n.code, 0⟩

/-- The host's write of the low n bytes of w at window offset o. -/
def Txn.writeAt (o : BitVec 17) (n : Width) (w : Word) : Txn := ⟨.write, o, n.code, w⟩

/-- The window offset of a register. -/
def Reg.windowOffset (r : Reg) : BitVec 17 := BitVec.ofNat 17 r.offset

/-- The window offset of PBUF index i (20_memory.md R61). -/
def pbufOffset (i : BitVec 16) : BitVec 17 := BitVec.ofNat 17 (0x10000 + i.toNat)

/-- One event of the total order of 20_memory.md R75, or a change of the reset pin. -/
inductive Event where
  /-- The host performs a transaction on the block's window. -/
  | txn (t : Txn)
  /-- The host performs a bus access at a host address, which reaches the block only inside its window
  (20_memory.md R61). -/
  | access (addr : Nat) (dir : Dir) (size : BitVec 2) (wdata : Word)
  /-- The engine's turn: the completion of the running command, if there is one (40_dispatch.md R113). -/
  | engine
  /-- The pin rst is driven to a level, active high (20_memory.md R80). -/
  | rst (level : Bool)
  deriving DecidableEq, Repr

/-- The transaction that a bus access at host address `addr` is for the block, if the address lies in
[BLOCK_BASE, BLOCK_BASE + 0x20000) (20_memory.md R61). -/
def windowTxn (addr : Nat) (dir : Dir) (size : BitVec 2) (wdata : Word) : Option Txn :=
  if Config.blockBase ≤ addr ∧ addr < Config.blockBase + 0x20000 then
    some ⟨dir, BitVec.ofNat 17 (addr - Config.blockBase), size, wdata⟩
  else none

end Sys2Proof.Machine
end

