-- ==== Sys2Proof/Machine/State.lean ====
section
/-! DEFINITION. The state of the IPC: exactly the packet buffer and the twenty registers (10_state.md R22), and four
fields of the model's own (epoch, rst, inbox, rdata; INVENTORY.md). A register with reserved bits is held as the record of
its fields, since a reserved bit reads 0 and ignores writes (93_implementation_defined.md U11, log entry 10). -/

namespace Sys2Proof.Machine

/-- The result codes (60_exceptions.md R200). Codes 5 to 15 are never written, so they are no value of the field. -/
inductive ResultCode where
  | ok
  | truncated
  | checksumMismatch
  | badLength
  | illegalOp
  deriving DecidableEq, Repr

/-- STATUS (10_state.md R24). -/
structure Status where
  busy : Bool
  done : Bool
  result : ResultCode
  overrun : Bool
  buserr : Bool
  deriving DecidableEq, Repr

/-- CONFIG (10_state.md R25). -/
structure ConfigReg where
  ie : Bool
  deriving DecidableEq, Repr

/-- TXH0 (10_state.md R29). -/
structure Txh0 where
  typ : Byte
  code : Byte
  deriving DecidableEq, Repr

/-- TXH1 (10_state.md R30). -/
structure Txh1 where
  id : Half
  seq : Half
  deriving DecidableEq, Repr

/-- RX_IP0 (10_state.md R34). -/
structure RxIp0 where
  vihl : Byte
  hlen : BitVec 6
  totlen : Half
  deriving DecidableEq, Repr

/-- RX_IP1 (10_state.md R35). -/
structure RxIp1 where
  ttl : Byte
  proto : Byte
  hcsum : Half
  deriving DecidableEq, Repr

/-- RX_IC0 (10_state.md R37). -/
structure RxIc0 where
  typ : Byte
  code : Byte
  csum : Half
  deriving DecidableEq, Repr

/-- RX_IC1 (10_state.md R38). -/
structure RxIc1 where
  id : Half
  seq : Half
  deriving DecidableEq, Repr

/-- AMCLASS: 0, 1 or 2, "3 never" (10_state.md R40). -/
inductive AmClass where
  | other
  | request
  | reply
  deriving DecidableEq, Repr

/-- RX_CLASS (10_state.md R40). -/
structure RxClass where
  amclass : AmClass
  codez : Bool
  deriving DecidableEq, Repr

/-- The ten decode result registers, written together and only by a successful DECODE (10_state.md R33). -/
structure Rx where
  ip0 : RxIp0
  ip1 : RxIp1
  src : Word
  dst : Word
  ic0 : RxIc0
  ic1 : RxIc1
  ploff : BitVec 17
  pllen : BitVec 17
  mask : Word
  cls : RxClass
  deriving DecidableEq, Repr

/-- PBUF's bytes written since the last reset, by index, indexes strictly rising. A byte that is not listed has not been
written since reset and reads as the free value PBUF_INIT (log entry 3). -/
abbrev Memory := List Host.Cell

/-- Everything the spec gives the machine, and the model's own fields. -/
structure State where
  cmd : Word
  status : Status
  config : ConfigReg
  len : Word
  base : Word
  txh0 : Txh0
  txh1 : Txh1
  mask : Word
  csum : Half
  rx : Rx
  bufsz : BitVec 17
  pbuf : Memory
  epoch : Nat
  rst : Bool
  inbox : List Event
  rdata : Word
  deriving DecidableEq, Repr

/-- No fault: "Nothing in the IPC is `stuck` or a host `fault`" (93_implementation_defined.md section 1; 60_exceptions.md
R207). The type has no constructor, so no definition can raise one (log entry 19). -/
inductive Fault where
  deriving DecidableEq, Repr

/-- Why a step has no meaning. -/
inductive Refusal where
  /-- An instruction that has no meaning yet; raised only by an arm of Machine/Dispatch.lean (no arm raises it now).
  Safe: the machine stops. -/
  | notModelled (mnemonic : String)
  /-- A host transaction that reaches the block while rst is asserted; raised by `handleEvent`. The spec asks for this
  refusal (70_reset_and_hazards.md R230, 93_implementation_defined.md U4). Safe: the machine stops. -/
  | transactionDuringReset
  deriving DecidableEq, Repr

/-- STATUS after reset: 0x00000000 (70_reset_and_hazards.md R233). -/
def Status.reset : Status := ⟨false, false, .ok, false, false⟩

/-- The ten decode result registers after reset: all 0x00000000 (70_reset_and_hazards.md R233). -/
def Rx.reset : Rx :=
  ⟨⟨0, 0, 0⟩, ⟨0, 0, 0⟩, 0, 0, ⟨0, 0, 0⟩, ⟨0, 0⟩, 0, 0, 0, ⟨.other, false⟩⟩

/-- The machine right after the release of rst at power-on (70_reset_and_hazards.md R231, R233): every register 0 except
BUFSZ, the engine IDLE, no byte of PBUF written. BUF_SIZE has its default (00_scope.md R7). epoch, inbox and rdata are
the model's own (log entries 2, 4, 7). -/
def State.reset : State where
  cmd := 0
  status := Status.reset
  config := ⟨false⟩
  len := 0
  base := 0
  txh0 := ⟨0, 0⟩
  txh1 := ⟨0, 0⟩
  mask := 0
  csum := 0
  rx := Rx.reset
  bufsz := Config.bufSizeDefault
  pbuf := []
  epoch := 0
  rst := false
  inbox := []
  rdata := 0

end Sys2Proof.Machine
end

