-- ==== Sys2Proof/Machine/Flags.lean ====
section
/-! DEFINITION. STATUS: what sets and clears each of its fields (10_state.md R24, R44), the result codes' numbers, and the
interrupt output. -/

namespace Sys2Proof.Machine

/-- The number of a result code, RESULT = STATUS[7:4] (60_exceptions.md R200). -/
def ResultCode.bits (c : ResultCode) : BitVec 4 :=
  match c with
  | .ok => 0
  | .truncated => 1
  | .checksumMismatch => 2
  | .badLength => 3
  | .illegalOp => 4

/-- The 32-bit value of STATUS: BUSY 0, DONE 1, RESULT 7:4, OVERRUN 8, BUSERR 9, all other bits 0 (10_state.md R24). -/
def Status.word (st : Status) : Word :=
  (0 : BitVec 22) ++ BitVec.ofBool st.buserr ++ BitVec.ofBool st.overrun ++ st.result.bits ++ (0 : BitVec 2) ++
    BitVec.ofBool st.done ++ BitVec.ofBool st.busy

/-- Acceptance of a command: BUSY <- 1, DONE <- 0 (40_dispatch.md R111). -/
def Status.accepted (st : Status) : Status := { st with busy := true, done := false }

/-- Completion of a command: RESULT <- code, BUSY <- 0, DONE <- 1 (40_dispatch.md R113). -/
def Status.completed (code : ResultCode) (st : Status) : Status :=
  { st with busy := false, done := true, result := code }

/-- A CMD write arrived while BUSY = 1 (40_dispatch.md R112). -/
def Status.overran (st : Status) : Status := { st with overrun := true }

/-- A host access was not performed (20_memory.md R68). -/
def Status.busErred (st : Status) : Status := { st with buserr := true }

/-- A host write of w to STATUS: bits 1, 8 and 9 write 1 to clear, the rest of w is ignored (10_state.md R24). -/
def Status.written (w : Word) (st : Status) : Status :=
  { st with
    done := st.done && !w.getLsbD 1
    overrun := st.overrun && !w.getLsbD 8
    buserr := st.buserr && !w.getLsbD 9 }

/-- The interrupt output: irq = STATUS.DONE & CONFIG.IE at every instant (10_state.md R42, 60_exceptions.md R205). -/
def State.irq (s : State) : Bool := s.status.done && s.config.ie

end Sys2Proof.Machine
end

