-- ==== Sys2Proof/Machine/InetChecksum.lean ====
section
/-! DEFINITION. The Internet checksum of a byte sequence (43_checksum.md R180 to R183), on unbounded naturals, and the
ones'-complement adder of R186, which is informative there and is used by no command. -/

namespace Sys2Proof.Machine

/-- The 16-bit words of a byte sequence: the even-index byte is the high-order one, an odd trailing byte is completed with
one zero byte (43_checksum.md R180, R181). -/
def inetWords (s : List Byte) : List Nat :=
  match s with
  | [] => []
  | [a] => [a.toNat * 256]
  | a :: b :: rest => (a.toNat * 256 + b.toNat) :: inetWords rest

/-- Sum(s): the sum of the words, 0 for the empty sequence (43_checksum.md R182). -/
def inetSum (s : List Byte) : Nat := (inetWords s).sum

/-- At most `fuel` passes of the loop of 43_checksum.md R182. -/
def fold16Loop (fuel S : Nat) : Nat :=
  match fuel with
  | 0 => S
  | n + 1 => if 0xFFFF < S then fold16Loop n ((S &&& 0xFFFF) + (S >>> 16)) else S

/-- Fold16(S): "add the carries back into the low 16 bits" until none remains (43_checksum.md R182). Each pass with
S > 0xFFFF makes S smaller, so S passes are always enough. -/
def fold16 (S : Nat) : Nat := fold16Loop S S

/-- InetChecksum(s) = 0xFFFF - Fold16(Sum(s)), a 16-bit value (43_checksum.md R183). -/
def inetChecksum (s : List Byte) : Half := BitVec.ofNat 16 (0xFFFF - fold16 (inetSum s))

/-- One step of the 16-bit adder with end-around carry (43_checksum.md R186). -/
def adderStep (acc w : Nat) : Nat :=
  let t := acc + w
  if 0xFFFF < t then t - 0xFFFF else t

/-- The adder run over a byte sequence: acc <- 0, one step for each word, then the complement (43_checksum.md R186). -/
def inetAdder (s : List Byte) : Half := BitVec.ofNat 16 (0xFFFF - (inetWords s).foldl adderStep 0)

end Sys2Proof.Machine
end

