-- ==== Sys2Proof/Machine/Operands.lean ====
section
/-! DEFINITION. Operand assembly (30_encoding.md R94): every operand is a field of an operand register, zero-extended and
unsigned; B and N are used as naturals, so that no sum wraps (00_scope.md R8). -/

namespace Sys2Proof.Machine

/-- TYPE = x[TXH0][31:24]. -/
def State.opType (s : State) : Byte := s.txh0.typ

/-- CODE = x[TXH0][23:16]. -/
def State.opCode (s : State) : Byte := s.txh0.code

/-- ID = x[TXH1][31:16]. -/
def State.opId (s : State) : Half := s.txh1.id

/-- SEQ = x[TXH1][15:0]. -/
def State.opSeq (s : State) : Half := s.txh1.seq

/-- MASKV = x[MASK]. -/
def State.opMask (s : State) : Word := s.mask

/-- B = x[BASE], as a natural. -/
def State.opBase (s : State) : Nat := s.base.toNat

/-- N = x[LEN], as a natural. -/
def State.opLen (s : State) : Nat := s.len.toNat

/-- BUF_SIZE, as BUFSZ shows it (10_state.md R41). -/
def State.bufSize (s : State) : Nat := s.bufsz.toNat

/-- v[15:8] of a 16-bit value. -/
def hiByte (v : Half) : Byte := v.extractLsb' 8 8

/-- v[7:0] of a 16-bit value. -/
def loByte (v : Half) : Byte := v.extractLsb' 0 8

end Sys2Proof.Machine
end

