-- ==== Sys2Proof/Machine/Ops.lean ====
section
/-! DEFINITION. The named operations over PBUF (20_memory.md R62), and the two ways in which a command ends: `returnOk` and
`raiseFail`, the IPC's one form of taking an exception (00_scope.md R9, 40_dispatch.md R113, R116, 60_exceptions.md R209).
There is no return from it and nothing to restore (60_exceptions.md R210). -/

namespace Sys2Proof.Machine

/-- The byte written at an index since reset, if any. -/
def Memory.get? (m : Memory) (i : Nat) : Option Byte :=
  match m with
  | [] => none
  | (j, b) :: rest => if i = j then some b else Memory.get? rest i

/-- Write one byte, keeping the indexes strictly rising. -/
def Memory.set (m : Memory) (i : Nat) (b : Byte) : Memory :=
  match m with
  | [] => [(i, b)]
  | (j, c) :: rest =>
    if i < j then (i, b) :: (j, c) :: rest
    else if i = j then (i, b) :: rest
    else (j, c) :: Memory.set rest i b

/-- Write a sequence of bytes, the first at index a. -/
def Memory.setBytes (m : Memory) (a : Nat) (bs : List Byte) : Memory :=
  match bs with
  | [] => m
  | b :: rest => Memory.setBytes (Memory.set m a b) (a + 1) rest

/-- All indexes are at least lo and strictly rising. -/
def Memory.risingFrom (lo : Nat) (m : Memory) : Bool :=
  match m with
  | [] => true
  | (j, _) :: rest => decide (lo ≤ j) && Memory.risingFrom (j + 1) rest

/-- The canonical form: indexes strictly rising. (An unlisted index has no written byte, so no entry can equal what an
unlisted index holds; log entry 3.) -/
def Memory.wf (m : Memory) : Bool := Memory.risingFrom 0 m

/-- Every listed index is below n. -/
def Memory.below (n : Nat) (m : Memory) : Bool := m.all fun c => decide (c.1 < n)

/-- PBUF[i]: the byte written at i since reset, else the free value PBUF_INIT (20_memory.md R60,
70_reset_and_hazards.md R231). -/
def State.pbufByte (s : State) (i : Nat) : Byte :=
  (Memory.get? s.pbuf i).getD (Config.pbufInit s.epoch i)

/-- PBUF[a .. a + n), in index order (00_scope.md R9). -/
def State.pbufBytes (s : State) (a n : Nat) : List Byte :=
  (List.range n).map fun k => s.pbufByte (a + k)

/-- PBUF[a ..) <- bs. -/
def State.writeBytes (a : Nat) (bs : List Byte) (s : State) : State :=
  { s with pbuf := Memory.setBytes s.pbuf a bs }

/-- The value of a byte sequence, most significant byte first (20_memory.md R62, R70). -/
def beValue (bs : List Byte) : Nat := bs.foldl (fun acc b => acc * 256 + b.toNat) 0

/-- The low n bytes of a value, most significant byte first (20_memory.md R62, R70). -/
def beBytes (n v : Nat) : List Byte :=
  (List.range n).map fun k => BitVec.ofNat 8 (v >>> (8 * (n - 1 - k)))

/-- MemRead(a, n) (20_memory.md R62). -/
def State.memRead (s : State) (a n : Nat) : Nat := beValue (s.pbufBytes a n)

/-- MemWrite(a, n, v) (20_memory.md R62). -/
def State.memWrite (a n v : Nat) (s : State) : State := s.writeBytes a (beBytes n v)

/-- x[CSUM] <- zext_32(c) (10_state.md R32). -/
def State.setCsum (c : Half) (s : State) : State := { s with csum := c }

/-- The ten decode result registers, written together (10_state.md R33). -/
def State.setRx (r : Rx) (s : State) : State := { s with rx := r }

/-- The completion of a command with a result code (40_dispatch.md R113): RESULT <- code, BUSY <- 0, DONE <- 1. -/
def State.complete (code : ResultCode) (s : State) : State :=
  { s with status := s.status.completed code }

/-- "return OK": the command's effects are committed in `s`, and it completes with RESULT = OK. -/
def returnOk (s : State) : Host.Outcome State Fault Refusal := .next (s.complete .ok)

/-- "raise Fail(code)": the command ends with no effect but STATUS.RESULT, BUSY and DONE (40_dispatch.md R116,
60_exceptions.md R209). `s` is the state before the command. -/
def raiseFail (code : ResultCode) (s : State) : Host.Outcome State Fault Refusal := .next (s.complete code)

/-- The effect of an accepted CMD write (40_dispatch.md R111): CMD <- w, BUSY <- 1, DONE <- 0. -/
def State.accept (w : Word) (s : State) : State :=
  { s with cmd := w, status := s.status.accepted }

end Sys2Proof.Machine
end

