-- ==== Sys2Proof/Machine/Checksum.lean ====
section
/-! DEFINITION. The command CHECKSUM (43_checksum.md R185). -/

namespace Sys2Proof.Machine

/-- CHECKSUM: the Internet checksum of PBUF[B .. B+N), no field zeroed (43_checksum.md R185). -/
def execChecksum (s : State) : Host.Outcome State Fault Refusal :=
  if s.bufSize < s.opBase + s.opLen then raiseFail .badLength s
  else returnOk (s.setCsum (inetChecksum (s.pbufBytes s.opBase s.opLen)))

end Sys2Proof.Machine
end

