-- ==== Sys2Proof/Machine/Decode.lean ====
section
/-! DEFINITION. The command DECODE (42_decode.md). B = opBase, N = opLen; the IPv4 field offsets are those of
30_encoding.md R98, the ICMP ones those of R95. -/

namespace Sys2Proof.Machine

/-- H = (VIHL & 0x0F) * 4, the declared IP header length of the datagram at B, 0 to 60 (42_decode.md R150). -/
def State.datagramHlen (s : State) : Nat := ((s.pbufByte s.opBase).toNat &&& 0x0F) * 4

/-- S = B + H, where the ICMP segment starts (30_encoding.md R99). -/
def State.segmentStart (s : State) : Nat := s.opBase + s.datagramHlen

/-- L = N - H, the length of the ICMP segment, which ends where the datagram ends (42_decode.md R154). -/
def State.segmentLen (s : State) : Nat := s.opLen - s.datagramHlen

/-- P = L - 8, the length of the payload. -/
def State.payloadLen (s : State) : Nat := s.segmentLen - 8

/-- The 16-bit value stored at segment offsets 2 and 3. -/
def State.storedChecksum (s : State) : Half := BitVec.ofNat 16 (s.memRead (s.segmentStart + 2) 2)

/-- seg0: the segment with its checksum field zeroed (42_decode.md R150). -/
def State.zeroedSegment (s : State) : List Byte :=
  s.pbufBytes s.segmentStart 2 ++ [0x00, 0x00] ++ s.pbufBytes (s.segmentStart + 4) (s.segmentLen - 4)

/-- The recomputed checksum (42_decode.md R157). -/
def State.calcChecksum (s : State) : Half := inetChecksum s.zeroedSegment

/-- The result code of DECODE: the first check that fails, in the order of 42_decode.md R161. -/
def State.decodeResult (s : State) : ResultCode :=
  if s.bufSize < s.opBase + s.opLen then .badLength
  else if s.opLen < 20 then .truncated
  else if s.opLen < s.datagramHlen + 8 then .truncated
  else if s.calcChecksum ≠ s.storedChecksum then .checksumMismatch
  else .ok

/-- AMCLASS(t) = 1 if t = 17, 2 if t = 18, 0 otherwise (42_decode.md R160). -/
def amClassOf (t : Byte) : AmClass := if t = 17 then .request else if t = 18 then .reply else .other

/-- RX_CLASS of an ICMP type and code (42_decode.md R160). -/
def classify (typ code : Byte) : RxClass := ⟨amClassOf typ, code == 0⟩

/-- The first four payload bytes as a 32-bit value; a byte that the payload does not have counts as 0, and so does not
show the PBUF byte beyond the datagram (42_decode.md R159). -/
def State.unpackMask (s : State) : Nat :=
  beValue ((List.range 4).map fun k => if k < s.payloadLen then s.pbufByte (s.segmentStart + 8 + k) else 0)

/-- The ten decode result registers that a successful DECODE writes (42_decode.md R150, R158). -/
def State.decodedRx (s : State) : Rx :=
  let b := s.opBase
  let g := s.segmentStart
  { ip0 := ⟨s.pbufByte b, BitVec.ofNat 6 s.datagramHlen, BitVec.ofNat 16 (s.memRead (b + 2) 2)⟩
    ip1 := ⟨s.pbufByte (b + 8), s.pbufByte (b + 9), BitVec.ofNat 16 (s.memRead (b + 10) 2)⟩
    src := BitVec.ofNat 32 (s.memRead (b + 12) 4)
    dst := BitVec.ofNat 32 (s.memRead (b + 16) 4)
    ic0 := ⟨s.pbufByte g, s.pbufByte (g + 1), s.storedChecksum⟩
    ic1 := ⟨BitVec.ofNat 16 (s.memRead (g + 4) 2), BitVec.ofNat 16 (s.memRead (g + 6) 2)⟩
    ploff := BitVec.ofNat 17 (g + 8)
    pllen := BitVec.ofNat 17 s.payloadLen
    mask := BitVec.ofNat 32 s.unpackMask
    cls := classify (s.pbufByte g) (s.pbufByte (g + 1)) }

/-- DECODE (42_decode.md R150): the ten registers on OK, nothing but the result code otherwise (R158). -/
def execDecode (s : State) : Host.Outcome State Fault Refusal :=
  match s.decodeResult with
  | .ok => returnOk (s.setRx s.decodedRx)
  | code => raiseFail code s

end Sys2Proof.Machine
end

