-- ==== Sys2Proof/Machine/Encode.lean ====
section
/-! DEFINITION. The encode family: ENCODE, PACK, ENCODE_AM (41_encode.md). -/

namespace Sys2Proof.Machine

/-- The 8 bytes of the ICMP header with checksum field c (30_encoding.md R95), from the operands (30_encoding.md R94). -/
def State.icmpHeader (c : Half) (s : State) : List Byte :=
  [s.opType, s.opCode, hiByte c, loByte c, hiByte s.opId, loByte s.opId, hiByte s.opSeq, loByte s.opSeq]

/-- The 4-byte address-mask payload: v[31:24], v[23:16], v[15:8], v[7:0] (30_encoding.md R96). -/
def maskPayload (v : Word) : List Byte :=
  [v.extractLsb' 24 8, v.extractLsb' 16 8, v.extractLsb' 8 8, v.extractLsb' 0 8]

/-- The checksum of the segment with payload pl: the Internet checksum of the header, its checksum field zero, followed by
the payload (41_encode.md R130, R132). -/
def State.segmentChecksum (pl : List Byte) (s : State) : Half := inetChecksum (s.icmpHeader 0 ++ pl)

/-- The payload that ENCODE reads, PBUF[B+8 .. B+8+P) (41_encode.md R130). -/
def State.encodePayload (s : State) : List Byte := s.pbufBytes (s.opBase + 8) s.opLen

/-- ENCODE (41_encode.md R130). -/
def execEncode (s : State) : Host.Outcome State Fault Refusal :=
  if s.bufSize < s.opBase + 8 + s.opLen then raiseFail .badLength s
  else
    let c := s.segmentChecksum s.encodePayload
    returnOk ((s.writeBytes s.opBase (s.icmpHeader c)).setCsum c)

/-- PACK (41_encode.md R134): MemWrite(B + 8, 4, MASKV). -/
def execPack (s : State) : Host.Outcome State Fault Refusal :=
  if s.bufSize < s.opBase + 12 then raiseFail .badLength s
  else returnOk (s.memWrite (s.opBase + 8) 4 s.opMask.toNat)

/-- ENCODE_AM (41_encode.md R136). -/
def execEncodeAm (s : State) : Host.Outcome State Fault Refusal :=
  if s.bufSize < s.opBase + 12 then raiseFail .badLength s
  else
    let pl := maskPayload s.opMask
    let c := s.segmentChecksum pl
    returnOk ((s.writeBytes s.opBase (s.icmpHeader c ++ pl)).setCsum c)

end Sys2Proof.Machine
end

