-- ==== Sys2Proof/Machine/Nop.lean ====
section
/-! DEFINITION. NOP (40_dispatch.md R117) and ILLEGAL (40_dispatch.md R115). -/

namespace Sys2Proof.Machine

/-- NOP: "return OK" with no effects (40_dispatch.md R117). -/
def execNop (s : State) : Host.Outcome State Fault Refusal := returnOk s

/-- ILLEGAL, run for every command word that the decoder rejects: raise Fail(ILLEGAL_OP) (40_dispatch.md R115,
60_exceptions.md R204). -/
def execIllegal (s : State) : Host.Outcome State Fault Refusal := raiseFail .illegalOp s

end Sys2Proof.Machine
end

