-- ==== Sys2Proof/Machine/Dispatch.lean ====
section
/-! DEFINITION. Exec of 40_dispatch.md R114: one arm for each command. -/

namespace Sys2Proof.Machine

def exec (i : Instr) (s : State) : Host.Outcome State Fault Refusal :=
  match i with
  | .nop => Sys2Proof.Machine.execNop s
  | .encode => Sys2Proof.Machine.execEncode s
  | .decode => Sys2Proof.Machine.execDecode s
  | .checksum => Sys2Proof.Machine.execChecksum s
  | .pack => Sys2Proof.Machine.execPack s
  | .encodeAm => Sys2Proof.Machine.execEncodeAm s

end Sys2Proof.Machine
end

