-- ==== Sys2Proof/Machine/Regs.lean ====
section
/-! DEFINITION. The 32-bit value of each register (10_state.md R23 to R41: "with reserved bits as 0", 20_memory.md R64) and
the effect of a performed register write. -/

namespace Sys2Proof.Machine

/-- CONFIG: IE in bit 0 (10_state.md R25). -/
def ConfigReg.word (c : ConfigReg) : Word := (0 : BitVec 31) ++ BitVec.ofBool c.ie

/-- A write to CONFIG keeps bit 0 (10_state.md R25). -/
def ConfigReg.ofWord (w : Word) : ConfigReg := ⟨w.getLsbD 0⟩

/-- TXH0: TYPE in bits 31:24, CODE in 23:16 (10_state.md R29). -/
def Txh0.word (t : Txh0) : Word := t.typ ++ t.code ++ (0 : BitVec 16)

/-- A write to TXH0 keeps bits 31:16 (10_state.md R29). -/
def Txh0.ofWord (w : Word) : Txh0 := ⟨w.extractLsb' 24 8, w.extractLsb' 16 8⟩

/-- TXH1: ID in bits 31:16, SEQ in 15:0 (10_state.md R30). -/
def Txh1.word (t : Txh1) : Word := t.id ++ t.seq

/-- A write to TXH1 keeps all bits (10_state.md R30). -/
def Txh1.ofWord (w : Word) : Txh1 := ⟨w.extractLsb' 16 16, w.extractLsb' 0 16⟩

/-- RX_IP0: VIHL in bits 31:24, HLEN in 21:16, TOTLEN in 15:0 (10_state.md R34). -/
def RxIp0.word (r : RxIp0) : Word := r.vihl ++ (0 : BitVec 2) ++ r.hlen ++ r.totlen

/-- RX_IP1: TTL in bits 31:24, PROTO in 23:16, HCSUM in 15:0 (10_state.md R35). -/
def RxIp1.word (r : RxIp1) : Word := r.ttl ++ r.proto ++ r.hcsum

/-- RX_IC0: TYPE in bits 31:24, CODE in 23:16, CSUM in 15:0 (10_state.md R37). -/
def RxIc0.word (r : RxIc0) : Word := r.typ ++ r.code ++ r.csum

/-- RX_IC1: ID in bits 31:16, SEQ in 15:0 (10_state.md R38). -/
def RxIc1.word (r : RxIc1) : Word := r.id ++ r.seq

/-- The number of an AMCLASS (10_state.md R40). -/
def AmClass.bits (c : AmClass) : BitVec 2 :=
  match c with
  | .other => 0
  | .request => 1
  | .reply => 2

/-- RX_CLASS: AMCLASS in bits 1:0, CODEZ in bit 2 (10_state.md R40). -/
def RxClass.word (r : RxClass) : Word := (0 : BitVec 29) ++ BitVec.ofBool r.codez ++ r.amclass.bits

/-- The value a performed read of a register returns (20_memory.md R64). -/
def State.readReg (r : Reg) (s : State) : Word :=
  match r with
  | .cmd => s.cmd
  | .status => s.status.word
  | .config => s.config.word
  | .len => s.len
  | .base => s.base
  | .txh0 => s.txh0.word
  | .txh1 => s.txh1.word
  | .mask => s.mask
  | .csum => (0 : BitVec 16) ++ s.csum
  | .rxIp0 => s.rx.ip0.word
  | .rxIp1 => s.rx.ip1.word
  | .rxSrc => s.rx.src
  | .rxDst => s.rx.dst
  | .rxIc0 => s.rx.ic0.word
  | .rxIc1 => s.rx.ic1.word
  | .rxPloff => (0 : BitVec 15) ++ s.rx.ploff
  | .rxPllen => (0 : BitVec 15) ++ s.rx.pllen
  | .rxMask => s.rx.mask
  | .rxClass => s.rx.cls.word
  | .bufsz => (0 : BitVec 15) ++ s.bufsz

/-- A transaction that is not performed: a read returns 0, a write changes nothing, and BUSERR <- 1 in both cases
(20_memory.md R68). -/
def State.notPerformed (d : Dir) (s : State) : State :=
  match d with
  | .read => { s with status := s.status.busErred, rdata := 0 }
  | .write => { s with status := s.status.busErred }

/-- A performed read that returns v. -/
def State.returnRead (v : Word) (s : State) : State := { s with rdata := v }

/-- A write to an operand register: not performed while BUSY = 1 (10_state.md R26, 20_memory.md R69). `t` is the state
with the register written. -/
def State.operandWrite (s t : State) : State :=
  if s.status.busy then s.notPerformed .write else t

/-- A host write of w to a register (10_state.md R23 to R31, 20_memory.md R64, R69; writes to RO registers are ignored). -/
def State.writeReg (r : Reg) (w : Word) (s : State) : State :=
  match r with
  | .cmd => if s.status.busy then { s with status := s.status.overran } else s.accept w
  | .status => { s with status := s.status.written w }
  | .config => { s with config := ConfigReg.ofWord w }
  | .len => s.operandWrite { s with len := w }
  | .base => s.operandWrite { s with base := w }
  | .txh0 => s.operandWrite { s with txh0 := Txh0.ofWord w }
  | .txh1 => s.operandWrite { s with txh1 := Txh1.ofWord w }
  | .mask => s.operandWrite { s with mask := w }
  | .csum => s
  | .rxIp0 => s
  | .rxIp1 => s
  | .rxSrc => s
  | .rxDst => s
  | .rxIc0 => s
  | .rxIc1 => s
  | .rxPloff => s
  | .rxPllen => s
  | .rxMask => s
  | .rxClass => s
  | .bufsz => s

end Sys2Proof.Machine
end

