-- ==== Sys2Proof/Machine/Window.lean ====
section
/-! DEFINITION. One host transaction on the block's window (20_memory.md R61, R63 to R69). -/

namespace Sys2Proof.Machine

/-- A transaction in the register window: performed when it is 4 bytes wide at a register's offset, which are the
multiples of 4 up to 0x4C (20_memory.md R64, R67). -/
def State.registerTxn (o : Nat) (n : Width) (d : Dir) (w : Word) (s : State) : State :=
  match n, Reg.ofOffset o with
  | .w4, some r =>
    match d with
    | .read => s.returnRead (s.readReg r)
    | .write => s.writeReg r w
  | _, _ => s.notPerformed d

/-- A PBUF-window access of n bytes at index i is performed when it is aligned, inside the buffer, and the engine is
IDLE (20_memory.md R65, R66, R69). -/
def State.pbufPerformed (i : Nat) (n : Width) (s : State) : Bool :=
  decide (i % n.bytes = 0) && decide (i + n.bytes ≤ s.bufSize) && !s.status.busy

/-- A transaction in the PBUF window (20_memory.md R65, R66). Of the write data the low 8n bits are used
(20_memory.md R63). -/
def State.pbufTxn (i : Nat) (n : Width) (d : Dir) (w : Word) (s : State) : State :=
  if s.pbufPerformed i n then
    match d with
    | .read => s.returnRead (BitVec.ofNat 32 (s.memRead i n.bytes))
    | .write => s.memWrite i n.bytes w.toNat
  else s.notPerformed d

/-- A host transaction: the width code 3 is not performed (20_memory.md R68, R80), the window's lower half holds the
registers and its upper half PBUF (20_memory.md R61). -/
def State.transact (t : Txn) (s : State) : State :=
  match Width.ofCode t.size with
  | none => s.notPerformed t.dir
  | some n =>
    if t.addr.toNat < 0x10000 then s.registerTxn t.addr.toNat n t.dir t.wdata
    else s.pbufTxn (t.addr.toNat - 0x10000) n t.dir t.wdata

/-- The release of rst (70_reset_and_hazards.md R231, R233): every register takes its reset value, the engine is IDLE, an
abandoned command leaves no trace, and PBUF is unspecified anew. BUFSZ is hardwired (10_state.md R41). What the host
will do next, and what it has read, are not the block's (log entry 17). -/
def State.released (s : State) : State :=
  { State.reset with bufsz := s.bufsz, epoch := s.epoch + 1, inbox := s.inbox, rdata := s.rdata }

/-- The pin rst takes a level: its release resets the block; while it stays asserted, or stays released, nothing happens
(70_reset_and_hazards.md R230, R231, log entry 5). -/
def State.drivePin (level : Bool) (s : State) : State :=
  match s.rst, level with
  | true, false => s.released
  | _, _ => { s with rst := level }

end Sys2Proof.Machine
end

