-- ==== Sys2Proof/Machine/Engine.lean ====
section
/-! DEFINITION. The engine's completion step (40_dispatch.md R113, R114), and what each event does. -/

namespace Sys2Proof.Machine

/-- Exec(x[CMD], state): decode the accepted word and run its command, or ILLEGAL (40_dispatch.md R114). -/
def engineCommand (s : State) : Host.Outcome State Fault Refusal :=
  match decodeWord s.cmd with
  | .ok i => exec i s
  | .error _ => execIllegal s

/-- The engine's one step, the completion, is enabled: BUSY = 1 (40_dispatch.md R113), and rst is released, because no
completion is committed while it is asserted (70_reset_and_hazards.md R231, log entry 5). -/
def State.completionEnabled (s : State) : Bool := s.status.busy && !s.rst

/-- The engine's turn. BUSY has exactly one enabled step, the completion; an IDLE engine does nothing (40_dispatch.md
R110, R113, log entry 15). -/
def engineTurn (s : State) : Host.Outcome State Fault Refusal :=
  if s.completionEnabled then engineCommand s else .next s

/-- A host transaction that reaches the block: refused while rst is asserted (70_reset_and_hazards.md R230,
93_implementation_defined.md U4). -/
def hostTransaction (t : Txn) (s : State) : Host.Outcome State Fault Refusal :=
  if s.rst then .refused .transactionDuringReset else .next (s.transact t)

/-- The state without its next event. -/
def State.popped (s : State) : State := { s with inbox := s.inbox.tail }

/-- One event of the order of 20_memory.md R75, or a change of the pin rst. A bus access outside the window does not reach
the block (20_memory.md R61). -/
def handleEvent (e : Event) (s : State) : Host.Outcome State Fault Refusal :=
  match e with
  | .txn t => hostTransaction t s
  | .access addr dir size wdata =>
    match windowTxn addr dir size wdata with
    | some t => hostTransaction t s
    | none => .next s
  | .engine => engineTurn s
  | .rst level => .next (s.drivePin level)

end Sys2Proof.Machine
end

