-- ==== Sys2Proof/Machine/Step.lean ====
section
/-! DEFINITION. One step: the next event of the total order (20_memory.md R75); when the host has nothing more to do, the
engine's turn, so that an accepted command completes (70_reset_and_hazards.md R242, log entry 4) and an IDLE block waits
(70_reset_and_hazards.md R232, log entry 15). -/

namespace Sys2Proof.Machine

/-- One step of the machine. -/
def step (s : State) : Host.Outcome State Fault Refusal :=
  match s.inbox with
  | [] => engineTurn s
  | e :: _ => handleEvent e s.popped

/-- The state in which the command word w has just been accepted (40_dispatch.md R111) and the very next step is its
completion: rst released and no event pending (log entry 11). -/
def State.withFetchWord (s : State) (nbits w : Nat) : State :=
  { s.accept (tableWord nbits w) with rst := false, inbox := [] }

end Sys2Proof.Machine
end

