-- ==== Sys2Proof/Machine/Program.lean ====
section
/-! DEFINITION. Host programs (30_encoding.md R101, R102): each operation is one host transaction or a host-side control
step. The temporaries and branches belong to the host processor, not to the IPC, so a run of a program is kept beside
`State`, not in it. What the notation leaves open about the host processor is in log entry 18. -/

namespace Sys2Proof.Machine

/-- The operations of 30_encoding.md R101. A temporary and a label are numbers. -/
inductive HostOp where
  /-- `wr32 REG, v` -/
  | wrReg (r : Reg) (v : Word)
  /-- `rd32 REG -> t` -/
  | rdReg (r : Reg) (t : Nat)
  /-- `wrN PBUF[i], v` -/
  | wrPbuf (n : Width) (i : BitVec 16) (v : Word)
  /-- `rdN PBUF[i] -> t` -/
  | rdPbuf (n : Width) (i : BitVec 16) (t : Nat)
  /-- `L:` -/
  | label (l : Nat)
  /-- `if t[k] = b goto L` -/
  | branch (t k : Nat) (b : Bool) (l : Nat)
  /-- `goto L` -/
  | goto (l : Nat)
  /-- `halt` -/
  | halt
  deriving DecidableEq, Repr

/-- The column "transaction" of 30_encoding.md R101; none for a host-side step. -/
def HostOp.txn (op : HostOp) : Option Txn :=
  match op with
  | .wrReg r v => some (Txn.writeAt r.windowOffset .w4 v)
  | .rdReg r _ => some (Txn.readAt r.windowOffset .w4)
  | .wrPbuf n i v => some (Txn.writeAt (pbufOffset i) n v)
  | .rdPbuf n i _ => some (Txn.readAt (pbufOffset i) n)
  | .label _ => none
  | .branch _ _ _ _ => none
  | .goto _ => none
  | .halt => none

/-- `cmd NOP` to `cmd ENCODE_AM`: `wr32 CMD, k` (30_encoding.md R102). -/
def HostOp.cmd (i : Instr) : List HostOp := [.wrReg .cmd (encode i)]

/-- `wait`: poll STATUS until BUSY = 0 (30_encoding.md R102). `l` is the label W and `t` the temporary s; the rule writes W
and s in every expansion, and here each `wait` of a program takes a label of its own (log entry 18). -/
def HostOp.wait (l t : Nat) : List HostOp := [.label l, .rdReg .status t, .branch t 0 true l]

/-- `ack`: clear DONE, OVERRUN and BUSERR (30_encoding.md R102). -/
def HostOp.ack : List HostOp := [.wrReg .status 0x00000302]

/-- `hdr t, c, id, seq` (30_encoding.md R102). -/
def HostOp.hdr (t c : Byte) (id seq : Half) : List HostOp :=
  [.wrReg .txh0 (BitVec.ofNat 32 (t.toNat * 2 ^ 24 + c.toNat * 2 ^ 16)),
   .wrReg .txh1 (BitVec.ofNat 32 (id.toNat * 2 ^ 16 + seq.toNat))]

/-- A run of a host program: the program, the index of its next operation, the host's temporaries, and the IPC. -/
structure HostRun where
  prog : List HostOp
  pc : Nat
  temps : List (Nat × Word)
  ipc : State
  deriving DecidableEq, Repr

/-- The value of a temporary; 0 before it is written (log entry 18). -/
def HostRun.temp (r : HostRun) (t : Nat) : Word := ((r.temps.find? fun p => p.1 == t).map Prod.snd).getD 0

/-- The index of a label: the end of the program when the label is missing, and the FIRST place where it stands when it
stands twice. DESIGN CHOICE: 30_encoding.md R101 and R102 say neither; a program with two `wait`s gives each its own label
(log entry 18). -/
def labelIndex (prog : List HostOp) (l : Nat) : Nat :=
  match prog with
  | [] => 0
  | op :: rest => if op = .label l then 0 else labelIndex rest l + 1

/-- The temporary that an operation's read is stored in. -/
def HostOp.dest (op : HostOp) : Option Nat :=
  match op with
  | .rdReg _ t => some t
  | .rdPbuf _ _ t => some t
  | .wrReg _ _ => none
  | .wrPbuf _ _ _ => none
  | .label _ => none
  | .branch _ _ _ _ => none
  | .goto _ => none
  | .halt => none

/-- Whether the host has executed `halt`, or has run off the end of its program. -/
def HostRun.halted (r : HostRun) : Bool :=
  match r.prog[r.pc]? with
  | none => true
  | some op => op == .halt

/-- The end of a run: the host has halted and the engine is IDLE (70_reset_and_hazards.md R245). -/
def HostRun.ended (r : HostRun) : Bool := r.halted && !r.ipc.status.busy

/-- The host's transaction `t` of operation `op` has been answered by the IPC in state `s`. -/
def HostRun.answered (op : HostOp) (s : State) (r : HostRun) : HostRun :=
  { r with
    pc := r.pc + 1
    ipc := s
    temps := match op.dest with
      | some d => (d, s.rdata) :: r.temps
      | none => r.temps }

/-- One operation of the host; a halted host does nothing. -/
def HostRun.hostTurn (r : HostRun) : Host.Outcome HostRun Fault Refusal :=
  match r.prog[r.pc]? with
  | none => .next r
  | some op =>
    match op.txn with
    | some t =>
      match hostTransaction t r.ipc with
      | .next s => .next (r.answered op s)
      | .fault f => .fault f
      | .refused f => .refused f
    | none =>
      match op with
      | .branch t k b l =>
        .next { r with pc := if (r.temp t).getLsbD k = b then labelIndex r.prog l else r.pc + 1 }
      | .goto l => .next { r with pc := labelIndex r.prog l }
      | .halt => .next r
      | _ => .next { r with pc := r.pc + 1 }

/-- One step of a run: the engine's turn or the host's, in the total order of 20_memory.md R75. -/
def HostRun.turn (engine : Bool) (r : HostRun) : Host.Outcome HostRun Fault Refusal :=
  if engine then
    match engineTurn r.ipc with
    | .next s => .next { r with ipc := s }
    | .fault f => .fault f
    | .refused f => .refused f
  else r.hostTurn

/-- A run under a schedule: for each entry, whether it is the engine's turn. -/
def HostRun.run (schedule : List Bool) (r : HostRun) : Host.Outcome HostRun Fault Refusal :=
  match schedule with
  | [] => .next r
  | e :: rest =>
    match r.turn e with
    | .next r' => r'.run rest
    | .fault f => .fault f
    | .refused f => .refused f

end Sys2Proof.Machine
end

