-- ==== Sys2Proof/Machine/Fairness.lean ====
section
/-! DEFINITION. Runs without end, and weak fairness of the engine's completion (70_reset_and_hazards.md R242): a completion
that stays enabled is taken. A run is driven by an endless order of events, or of turns, which is no part of `State`
(log entry 21). -/

namespace Sys2Proof.Machine

/-- The block after the first n events of an endless order of events: each is the one pending event of one step. -/
def State.after (events : Nat → Event) (n : Nat) (s : State) : Host.Outcome State Fault Refusal :=
  match n with
  | 0 => .next s
  | m + 1 =>
    match s.after events m with
    | .next t => step { t with inbox := [events m] }
    | .fault f => .fault f
    | .refused q => .refused q

/-- Weak fairness of the completion over a run of the block: if from some point on the completion is enabled for ever,
the engine has a turn after that point. -/
def State.weaklyFair (events : Nat → Event) (s : State) : Prop :=
  ∀ n, (∀ m, n ≤ m → ∃ t, s.after events m = .next t ∧ t.completionEnabled = true) → ∃ m, n ≤ m ∧ events m = .engine

/-- A host program's run after the first n turns of an endless schedule; `schedule k` says whether turn k is the engine's. -/
def HostRun.after (schedule : Nat → Bool) (n : Nat) (r : HostRun) : Host.Outcome HostRun Fault Refusal :=
  r.run ((List.range n).map schedule)

/-- A fair run of a host program. -/
structure HostRun.Fair (schedule : Nat → Bool) (r : HostRun) : Prop where
  /-- Weak fairness of the engine's completion (70_reset_and_hazards.md R242). -/
  engine : ∀ n, (∀ m, n ≤ m → ∃ q, r.after schedule m = .next q ∧ q.ipc.completionEnabled = true) →
    ∃ m, n ≤ m ∧ schedule m = true
  /-- The host goes on executing its program (DEDUCED, log entry 21). -/
  host : ∀ n, ∃ m, n ≤ m ∧ schedule m = false

end Sys2Proof.Machine
end

