-- ==== Sys2Proof/Safety.lean ====
section
/-! DEFINITION. What a safe state and a safe run are: the invariant that every step keeps, and the one duty of the host
whose breach the spec lets a model refuse. -/

namespace Sys2Proof.Machine

/-- The invariant of the machine. -/
structure State.Inv (s : State) : Prop where
  /-- BUF_SIZE is within its constraint (00_scope.md R7). -/
  bufSize : Config.bufSizeOk s.bufSize = true
  /-- The memory is in its canonical form (log entry 3). -/
  pbufWf : Memory.wf s.pbuf = true
  /-- No byte beyond the buffer has been written (20_memory.md R60). -/
  pbufInside : Memory.below s.bufSize s.pbuf = true
  /-- BUSY and DONE are never both 1: acceptance clears DONE, completion clears BUSY (10_state.md R24). -/
  busyDone : (s.status.busy && s.status.done) = false
  /-- RX_IP0.HLEN is the low nibble of VIHL, times 4 (10_state.md R34). -/
  hlen : s.rx.ip0.hlen.toNat = (s.rx.ip0.vihl.toNat &&& 0x0F) * 4
  /-- The payload that RX_PLOFF and RX_PLLEN locate lies in PBUF (10_state.md R39, 42_decode.md R151). -/
  payload : s.rx.ploff.toNat + s.rx.pllen.toNat ≤ s.bufSize
  /-- Before the first successful DECODE the ten registers read 0 (70_reset_and_hazards.md R235); afterwards RX_CLASS
  classifies the type and code in RX_IC0 (42_decode.md R160). -/
  cls : s.rx = Rx.reset ∨ s.rx.cls = classify s.rx.ic0.typ s.rx.ic0.code

/-- The transaction with which an event reaches the block, if it does (20_memory.md R61). -/
def Event.reaches (e : Event) : Option Txn :=
  match e with
  | .txn t => some t
  | .access addr dir size wdata => windowTxn addr dir size wdata
  | .engine => none
  | .rst _ => none

/-- The transaction that the next event is, if it reaches the block. -/
def State.nextTxn (s : State) : Option Txn := s.inbox.head?.bind Event.reaches

/-- The host issues no transaction to the block while rst is asserted (70_reset_and_hazards.md R230), over the events
still to come, when rst has the level `level` now. -/
def obeysReset (level : Bool) (es : List Event) : Bool :=
  match es with
  | [] => true
  | .rst l :: rest => obeysReset l rest
  | e :: rest => (!level || e.reaches.isNone) && obeysReset level rest

/-- The host of this state obeys the reset rule from here on. -/
def State.hostObeysReset (s : State) : Bool := obeysReset s.rst s.inbox

end Sys2Proof.Machine
end

