-- ==== Sys2Proof/Certificates/Slice0/Obligations.lean ====
section
/-! DEFINITION. The statements for the provers, in the order of the spec's files. A command's completion is written out as
the record update of STATUS that 40_dispatch.md R113 gives: BUSY <- 0, DONE <- 1, RESULT <- code. Where a statement says
`{ t with pbuf := s.pbuf, … } = s`, it is a frame: `t` differs from `s` in the fields listed there at most. -/

open Sys2Proof Sys2Proof.Machine

/-! ## Encoding -/

/-- 30_encoding.md R91: the six command words, written out bit by bit, decode to their commands. -/
def Obligations.TableWordsDecode : Prop :=
  decodeWord 0b00000000000000000000000000000000#32 = .ok .nop ∧
  decodeWord 0b00000000000000000000000000000001#32 = .ok .encode ∧
  decodeWord 0b00000000000000000000000000000010#32 = .ok .decode ∧
  decodeWord 0b00000000000000000000000000000011#32 = .ok .checksum ∧
  decodeWord 0b00000000000000000000000000000100#32 = .ok .pack ∧
  decodeWord 0b00000000000000000000000000000101#32 = .ok .encodeAm

/-- 30_encoding.md R92: decoding is total, a word is a command exactly when its reserved field is 0 and its opcode at most 5,
and decode and encode agree in both directions on every 32-bit word. -/
def Obligations.DecodeIsTotalAndInvertsEncode : Prop :=
  (∀ w : Word, (∃ i, decodeWord w = .ok i) ↔ w.extractLsb' 4 28 = 0 ∧ (w.extractLsb' 0 4).toNat ≤ 5) ∧
  (∀ (w : Word) (i : Instr), decodeWord w = .ok i ↔ encode i = w) ∧
  (∀ (w : Word) (i : Instr), decodeWord w = .ok i → (w &&& 0xFFFFFFFF) = encode i)

/-! ## Reset -/

/-- 70_reset_and_hazards.md R233, for the machine right after power-on: every register reads 0 except BUFSZ, which reads
BUF_SIZE (its default, 65536), the engine is IDLE, irq is 0, and PBUF holds the free bytes PBUF_INIT. -/
def Obligations.ResetStateReadsZero : Prop :=
  (∀ r : Reg, r ≠ .bufsz → State.reset.readReg r = 0) ∧
  State.reset.readReg .bufsz = 0x00010000 ∧
  State.reset.status.busy = false ∧
  State.reset.irq = false ∧
  (∀ a, State.reset.pbufByte a = Config.pbufInit State.reset.epoch a)

/-- 70_reset_and_hazards.md R230, R231, R233: driving rst to 1 asserts it; the release of rst gives every register its reset value whatever the state before,
BUFSZ keeps BUF_SIZE, the engine is IDLE, irq is 0, and each PBUF byte is the free value of a NEW reset (log entry 2), so
a command that was running leaves no trace. That the assertion, and driving the pin to the level it has, change nothing but
the pin and the list of events is the model's choice (log entry 5). -/
def Obligations.ReleaseOfResetClearsEveryRegister : Prop :=
  (∀ (s : State) (rest : List Event), s.rst = true → s.inbox = .rst false :: rest →
    ∃ t, step s = .next t ∧
      (∀ r : Reg, r ≠ .bufsz → t.readReg r = 0) ∧
      t.readReg .bufsz = s.readReg .bufsz ∧
      t.status.busy = false ∧ t.irq = false ∧ t.rst = false ∧
      (∀ a, t.pbufByte a = Config.pbufInit (s.epoch + 1) a)) ∧
  (∀ (s : State) (rest : List Event), s.inbox = .rst true :: rest → step s = .next { s with inbox := rest, rst := true }) ∧
  (∀ (s : State) (rest : List Event), s.rst = false → s.inbox = .rst false :: rest →
    step s = .next { s with inbox := rest })

/-- The invariant of the machine holds after reset. -/
def Obligations.InvariantHoldsAtReset : Prop := State.reset.Inv

/-- Every step keeps the invariant (the memory's canonical form and bound, BUF_SIZE's constraint, BUSY and DONE never both
1, HLEN derived from VIHL, the located payload inside PBUF, RX_CLASS in agreement with RX_IC0), from every state that
has it. -/
def Obligations.EveryStepKeepsTheInvariant : Prop :=
  ∀ s t : State, s.Inv → step s = .next t → t.Inv

/-- 10_state.md R41: BUFSZ reads the parameter BUF_SIZE (65536 by default) in bits 16:0 and 0 above, the same value in every
state of a run, before and after reset, and a write to it is ignored. -/
def Obligations.BufszIsConstant : Prop :=
  (∀ s t : State, step s = .next t → t.readReg .bufsz = s.readReg .bufsz) ∧
  (∀ s : State, (s.readReg .bufsz).toNat = s.bufSize ∧ (s.readReg .bufsz).extractLsb' 17 15 = 0) ∧
  State.reset.readReg .bufsz = 0x10000 ∧
  (∀ (s : State) (w : Word), s.transact (Txn.writeAt Reg.bufsz.windowOffset .w4 w) = s)

/-! ## The command life cycle -/

/-- The step runs the accepted command: with rst released and the engine BUSY, when the engine's turn is next (the next
event says so, or no event is left: log entry 4), a step is `exec` of the command that CMD decodes to, in the state without
that event. The engine's turn of an IDLE block (log entry 15), or of one whose rst is asserted (log entry 5), changes nothing
but the list of events. -/
def Obligations.StepRunsTheAcceptedCommand : Prop :=
  (∀ (s : State) (i : Instr), s.rst = false → s.status.busy = true → decodeWord s.cmd = .ok i →
    (s.inbox = [] → step s = exec i s) ∧
    (∀ rest, s.inbox = .engine :: rest → step s = exec i { s with inbox := rest })) ∧
  (∀ s : State, s.status.busy = false ∨ s.rst = true →
    (s.inbox = [] → step s = .next s) ∧
    (∀ rest, s.inbox = .engine :: rest → step s = .next { s with inbox := rest }))

/-- 40_dispatch.md R113, R115: an illegal word in CMD completes with RESULT = 4 and no other effect. That a step with no event
left is the engine's turn is the model's choice (log entry 4). -/
def Obligations.IllegalWordCompletesWithIllegalOp : Prop :=
  ∀ s : State, (s.cmd.extractLsb' 4 28 ≠ 0 ∨ 6 ≤ (s.cmd.extractLsb' 0 4).toNat) →
    engineCommand s =
      .next { s with status := { s.status with busy := false, done := true, result := .illegalOp } } ∧
    (s.rst = false → s.status.busy = true → s.inbox = [] →
      step s = .next { s with status := { s.status with busy := false, done := true, result := .illegalOp } })

/-- 40_dispatch.md R111: a CMD write to an IDLE block, of any word, sets CMD and BUSY, clears DONE, and changes nothing else;
CMD then reads back all 32 bits of the word, reserved bits included (10_state.md R23). -/
def Obligations.CmdWriteWhileIdleIsAccepted : Prop :=
  ∀ (s : State) (w : Word) (rest : List Event), s.rst = false → s.status.busy = false →
    s.inbox = .txn (Txn.writeAt Reg.cmd.windowOffset .w4 w) :: rest →
    ∃ t, step s = .next t ∧
      t = { s with inbox := rest, cmd := w, status := { s.status with busy := true, done := false } } ∧
      t.readReg .cmd = w

/-- 40_dispatch.md R112: a CMD write to a BUSY block is dropped and only sets OVERRUN. -/
def Obligations.CmdWriteWhileBusyOnlySetsOverrun : Prop :=
  ∀ (s : State) (w : Word) (rest : List Event), s.rst = false → s.status.busy = true →
    s.inbox = .txn (Txn.writeAt Reg.cmd.windowOffset .w4 w) :: rest →
    step s = .next { s with inbox := rest, status := { s.status with overrun := true } }

/-- 40_dispatch.md R110: the engine leaves IDLE only by accepting a command, leaves BUSY only by completing it or by reset,
and is IDLE after reset. -/
def Obligations.EngineChangesStateOnlyByItsLifeCycle : Prop :=
  (∀ s t : State, step s = .next t → s.status.busy = false → t.status.busy = true →
    ∃ x, s.nextTxn = some x ∧ x.dir = .write ∧ x.addr = Reg.cmd.windowOffset ∧ t.cmd = x.wdata ∧
      t.status.done = false) ∧
  (∀ s t : State, step s = .next t → s.status.busy = true → t.status.busy = false →
    engineCommand s.popped = .next t ∨
    (s.rst = true ∧ ∃ rest, s.inbox = .rst false :: rest)) ∧
  State.reset.status.busy = false

/-- 40_dispatch.md R118: once accepted, a command keeps running with its word unchanged until it completes; only the release
of reset ends it early. -/
def Obligations.RunningCommandIsNeverCancelledByTheHost : Prop :=
  ∀ s t : State, step s = .next t → s.status.busy = true →
    (t.status.busy = true ∧ t.cmd = s.cmd) ∨
    engineCommand s.popped = .next t ∨
    (s.rst = true ∧ ∃ rest, s.inbox = .rst false :: rest)

/-- 40_dispatch.md R113, its last sentences: a completion takes place only while BUSY = 1, so DONE rises and RESULT changes
only when an accepted command completes (or, for RESULT, at reset). -/
def Obligations.DoneRisesOnlyAtACompletion : Prop :=
  ∀ s t : State, step s = .next t →
    (t.status.done = true → s.status.done = false →
      s.status.busy = true ∧ engineCommand s.popped = .next t) ∧
    (t.status.result ≠ s.status.result →
      (s.status.busy = true ∧ engineCommand s.popped = .next t) ∨
      (s.rst = true ∧ ∃ rest, s.inbox = .rst false :: rest))

/-- 70_reset_and_hazards.md R242, bounded: while the reset pin is left alone, one step more than the host has pending events
leaves the engine IDLE, whatever those events are. That the engine completes once the events are used up is the model's
form of the fairness assumption (log entry 4). -/
def Obligations.AcceptedCommandsComplete : Prop :=
  ∀ s : State, s.rst = false → (∀ l, Event.rst l ∉ s.inbox) →
    ∃ t : State, Host.Core.run core (s.inbox.length + 1) s = .next t ∧ t.status.busy = false ∧ t.inbox = []

/-- 40_dispatch.md R116: a command that does not end with OK changes nothing but STATUS.RESULT, BUSY and DONE. -/
def Obligations.FailureIsAllOrNothing : Prop :=
  ∀ s t : State, engineCommand s = .next t → t.status.result ≠ .ok →
    t = { s with status := { s.status with busy := false, done := true, result := t.status.result } }

/-- 40_dispatch.md R113 and 10_state.md R26: every completion sets DONE, clears BUSY, and leaves OVERRUN, BUSERR, CMD,
CONFIG, the operand registers and BUFSZ alone, for the six commands and for ILLEGAL. -/
def Obligations.CompletionLeavesHostRegistersAlone : Prop :=
  ∀ s : State, ∃ t, engineCommand s = .next t ∧ t.status.done = true ∧ t.status.busy = false ∧
    { t with
      pbuf := s.pbuf
      csum := s.csum
      rx := s.rx
      status := { t.status with busy := s.status.busy, done := s.status.done, result := s.status.result } } = s

/-- The bytes of PBUF that a command's rule lets it read (41_encode.md R130, 42_decode.md R151, 43_checksum.md R185). -/
def Sys2Proof.Machine.mayRead (i : Instr) (s : State) (a : Nat) : Prop :=
  match i with
  | .nop => False
  | .encode => s.opBase + 8 ≤ a ∧ a < s.opBase + 8 + s.opLen
  | .decode => s.opBase ≤ a ∧ a < s.opBase + s.opLen
  | .checksum => s.opBase ≤ a ∧ a < s.opBase + s.opLen
  | .pack => False
  | .encodeAm => False

/-- 40_dispatch.md R119: the result code and the effects of a command depend only on the operand registers, on BUF_SIZE and
on the PBUF bytes it reads; two states that agree on these see the same effects, however they differ in CONFIG, STATUS,
the result registers and the rest of PBUF. -/
def Obligations.ExecDependsOnlyOnItsOperands : Prop :=
  ∀ (i : Instr) (s s' : State),
    s.len = s'.len → s.base = s'.base → s.txh0 = s'.txh0 → s.txh1 = s'.txh1 → s.mask = s'.mask →
    s.bufsz = s'.bufsz → (∀ a, mayRead i s a → s.pbufByte a = s'.pbufByte a) →
    ∃ t t', exec i s = .next t ∧ exec i s' = .next t' ∧
      t.status.result = t'.status.result ∧
      (∀ a, t.pbufByte a = t'.pbufByte a ∨ (t.pbufByte a = s.pbufByte a ∧ t'.pbufByte a = s'.pbufByte a)) ∧
      (t.csum = t'.csum ∨ (t.csum = s.csum ∧ t'.csum = s'.csum)) ∧
      (t.rx = t'.rx ∨ (t.rx = s.rx ∧ t'.rx = s'.rx))

/-- 60_exceptions.md R200, R202, R203: which commands raise which result codes. -/
def Obligations.ResultCodesByCommand : Prop :=
  ∀ (i : Instr) (s : State), ∃ t, exec i s = .next t ∧
    (t.status.result = .truncated → i = .decode) ∧
    (t.status.result = .checksumMismatch → i = .decode) ∧
    (t.status.result = .badLength → i ≠ .nop) ∧
    t.status.result ≠ .illegalOp

/-- 60_exceptions.md R201: BAD_LENGTH is raised exactly when the command's byte range does not fit in PBUF, in unbounded
arithmetic and before any other check. -/
def Obligations.BadLengthExactlyWhenTheRangeDoesNotFit : Prop :=
  ∀ s : State,
    ((∃ t, exec .encode s = .next t ∧ t.status.result = .badLength) ↔
      s.base.toNat + 8 + s.len.toNat > s.bufsz.toNat) ∧
    ((∃ t, exec .pack s = .next t ∧ t.status.result = .badLength) ↔ s.base.toNat + 12 > s.bufsz.toNat) ∧
    ((∃ t, exec .encodeAm s = .next t ∧ t.status.result = .badLength) ↔ s.base.toNat + 12 > s.bufsz.toNat) ∧
    ((∃ t, exec .decode s = .next t ∧ t.status.result = .badLength) ↔
      s.base.toNat + s.len.toNat > s.bufsz.toNat) ∧
    ((∃ t, exec .checksum s = .next t ∧ t.status.result = .badLength) ↔
      s.base.toNat + s.len.toNat > s.bufsz.toNat)

/-! ## The commands -/

/-- 40_dispatch.md R117: NOP sets RESULT to OK, DONE to 1 and BUSY to 0, and does nothing else, in every state. -/
def Obligations.NopOnlyCompletesWithOk : Prop :=
  ∀ s : State, exec .nop s =
    .next { s with status := { s.status with busy := false, done := true, result := .ok } }

/-- 41_encode.md R130, R131, R132: ENCODE. When the segment fits, it writes the eight header bytes in front of the payload,
with the Internet checksum of the segment whose checksum field is zero, and CSUM; every other byte and every other
register is unchanged. When it does not fit, it fails with BAD_LENGTH. TYPE, CODE, ID and SEQ are any values. -/
def Obligations.EncodeWritesHeaderAndChecksum : Prop :=
  ∀ s : State,
    (s.base.toNat + 8 + s.len.toNat ≤ s.bufsz.toNat →
      ∃ t c, exec .encode s = .next t ∧
        c = inetChecksum ([s.txh0.typ, s.txh0.code, 0x00, 0x00, s.txh1.id.extractLsb' 8 8, s.txh1.id.extractLsb' 0 8,
          s.txh1.seq.extractLsb' 8 8, s.txh1.seq.extractLsb' 0 8] ++ s.pbufBytes (s.base.toNat + 8) s.len.toNat) ∧
        t.pbufBytes s.base.toNat 8 = [s.txh0.typ, s.txh0.code, c.extractLsb' 8 8, c.extractLsb' 0 8,
          s.txh1.id.extractLsb' 8 8, s.txh1.id.extractLsb' 0 8, s.txh1.seq.extractLsb' 8 8,
          s.txh1.seq.extractLsb' 0 8] ∧
        (∀ a, a < s.base.toNat ∨ s.base.toNat + 8 ≤ a → t.pbufByte a = s.pbufByte a) ∧
        t.readReg .csum = c.setWidth 32 ∧
        t.status = { s.status with busy := false, done := true, result := .ok } ∧
        { t with pbuf := s.pbuf, csum := s.csum, status := s.status } = s) ∧
    (s.bufsz.toNat < s.base.toNat + 8 + s.len.toNat →
      exec .encode s = .next { s with status := { s.status with busy := false, done := true, result := .badLength } })

/-- 41_encode.md R134: PACK writes MASK into the four payload bytes at BASE + 8, most significant byte first; CSUM, the
header bytes and every other byte and register are unchanged. When they do not fit, it fails with BAD_LENGTH. -/
def Obligations.PackWritesTheMaskPayload : Prop :=
  ∀ s : State,
    (s.base.toNat + 12 ≤ s.bufsz.toNat →
      ∃ t, exec .pack s = .next t ∧
        t.pbufBytes (s.base.toNat + 8) 4 = [s.mask.extractLsb' 24 8, s.mask.extractLsb' 16 8,
          s.mask.extractLsb' 8 8, s.mask.extractLsb' 0 8] ∧
        (∀ a, a < s.base.toNat + 8 ∨ s.base.toNat + 12 ≤ a → t.pbufByte a = s.pbufByte a) ∧
        t.status = { s.status with busy := false, done := true, result := .ok } ∧
        { t with pbuf := s.pbuf, status := s.status } = s) ∧
    (s.bufsz.toNat < s.base.toNat + 12 →
      exec .pack s = .next { s with status := { s.status with busy := false, done := true, result := .badLength } })

/-- 41_encode.md R136: ENCODE_AM writes the complete 12-byte address-mask message and CSUM; nothing else is changed, the old
payload bytes are not read, and LEN is not read. When it does not fit, it fails with BAD_LENGTH. -/
def Obligations.EncodeAmWritesTheWholeMessage : Prop :=
  ∀ s : State,
    (s.base.toNat + 12 ≤ s.bufsz.toNat →
      ∃ t c, exec .encodeAm s = .next t ∧
        c = inetChecksum [s.txh0.typ, s.txh0.code, 0x00, 0x00, s.txh1.id.extractLsb' 8 8, s.txh1.id.extractLsb' 0 8,
          s.txh1.seq.extractLsb' 8 8, s.txh1.seq.extractLsb' 0 8, s.mask.extractLsb' 24 8, s.mask.extractLsb' 16 8,
          s.mask.extractLsb' 8 8, s.mask.extractLsb' 0 8] ∧
        t.pbufBytes s.base.toNat 12 = [s.txh0.typ, s.txh0.code, c.extractLsb' 8 8, c.extractLsb' 0 8,
          s.txh1.id.extractLsb' 8 8, s.txh1.id.extractLsb' 0 8, s.txh1.seq.extractLsb' 8 8,
          s.txh1.seq.extractLsb' 0 8, s.mask.extractLsb' 24 8, s.mask.extractLsb' 16 8,
          s.mask.extractLsb' 8 8, s.mask.extractLsb' 0 8] ∧
        (∀ a, a < s.base.toNat ∨ s.base.toNat + 12 ≤ a → t.pbufByte a = s.pbufByte a) ∧
        t.readReg .csum = c.setWidth 32 ∧
        t.status = { s.status with busy := false, done := true, result := .ok } ∧
        { t with pbuf := s.pbuf, csum := s.csum, status := s.status } = s) ∧
    (s.bufsz.toNat < s.base.toNat + 12 →
      exec .encodeAm s =
        .next { s with status := { s.status with busy := false, done := true, result := .badLength } })

/-- 41_encode.md R135: PACK, then ENCODE with LEN = 4 and the same BASE, leaves PBUF[B .. B+12), every other byte and CSUM
exactly as ENCODE_AM leaves them, and completes with the same code, whether the message fits or not. -/
def Obligations.PackThenEncodeEqualsEncodeAm : Prop :=
  ∀ s : State, ∃ p t u, exec .pack s = .next p ∧ exec .encode { p with len := 4 } = .next t ∧ exec .encodeAm s = .next u ∧
    t.pbufBytes s.base.toNat 12 = u.pbufBytes s.base.toNat 12 ∧ t.csum = u.csum ∧
    (∀ a, t.pbufByte a = u.pbufByte a) ∧ t.status.result = u.status.result

/-- 43_checksum.md R185: CHECKSUM writes the Internet checksum of PBUF[B .. B+N) to CSUM and changes nothing else; it fails
with BAD_LENGTH when the range does not fit. -/
def Obligations.ChecksumWritesCsum : Prop :=
  ∀ s : State,
    (s.base.toNat + s.len.toNat ≤ s.bufsz.toNat →
      ∃ t, exec .checksum s = .next t ∧
        t.readReg .csum = (inetChecksum (s.pbufBytes s.base.toNat s.len.toNat)).setWidth 32 ∧
        (∀ a, t.pbufByte a = s.pbufByte a) ∧
        t.status = { s.status with busy := false, done := true, result := .ok } ∧
        { t with csum := s.csum, status := s.status } = s) ∧
    (s.bufsz.toNat < s.base.toNat + s.len.toNat →
      exec .checksum s =
        .next { s with status := { s.status with busy := false, done := true, result := .badLength } })

/-- 42_decode.md R150: DECODE. When its four checks pass it writes the ten result registers with the values of the rule, each
read as the host reads it, and changes nothing else; when a check fails it completes with that check's code and changes
nothing else. -/
def Obligations.DecodeWritesTheResultRegisters : Prop :=
  ∀ (s : State) (B N H S : Nat) (cal : Half),
    B = s.base.toNat → N = s.len.toNat → H = ((s.pbufByte B).toNat &&& 0x0F) * 4 → S = B + H →
    cal = inetChecksum (s.pbufBytes S 2 ++ [0x00, 0x00] ++ s.pbufBytes (S + 4) (N - H - 4)) →
    (B + N ≤ s.bufsz.toNat → 20 ≤ N → H + 8 ≤ N → cal.toNat = s.memRead (S + 2) 2 →
      ∃ t, exec .decode s = .next t ∧
        (t.readReg .rxIp0).toNat = (s.pbufByte B).toNat * 2 ^ 24 + H * 2 ^ 16 + s.memRead (B + 2) 2 ∧
        (t.readReg .rxIp1).toNat =
          (s.pbufByte (B + 8)).toNat * 2 ^ 24 + (s.pbufByte (B + 9)).toNat * 2 ^ 16 + s.memRead (B + 10) 2 ∧
        (t.readReg .rxSrc).toNat = s.memRead (B + 12) 4 ∧
        (t.readReg .rxDst).toNat = s.memRead (B + 16) 4 ∧
        (t.readReg .rxIc0).toNat =
          (s.pbufByte S).toNat * 2 ^ 24 + (s.pbufByte (S + 1)).toNat * 2 ^ 16 + s.memRead (S + 2) 2 ∧
        (t.readReg .rxIc1).toNat = s.memRead (S + 4) 2 * 2 ^ 16 + s.memRead (S + 6) 2 ∧
        (t.readReg .rxPloff).toNat = S + 8 ∧
        (t.readReg .rxPllen).toNat = N - H - 8 ∧
        (t.readReg .rxMask).toNat =
          (if 0 < N - H - 8 then (s.pbufByte (S + 8)).toNat else 0) * 256 ^ 3 +
          (if 1 < N - H - 8 then (s.pbufByte (S + 9)).toNat else 0) * 256 ^ 2 +
          (if 2 < N - H - 8 then (s.pbufByte (S + 10)).toNat else 0) * 256 +
          (if 3 < N - H - 8 then (s.pbufByte (S + 11)).toNat else 0) ∧
        (t.readReg .rxClass).toNat =
          (if s.pbufByte S = 17 then 1 else if s.pbufByte S = 18 then 2 else 0) +
          4 * (if s.pbufByte (S + 1) = 0 then 1 else 0) ∧
        (∀ a, t.pbufByte a = s.pbufByte a) ∧
        t.status = { s.status with busy := false, done := true, result := .ok } ∧
        { t with rx := s.rx, status := s.status } = s) ∧
    (s.bufsz.toNat < B + N → exec .decode s =
      .next { s with status := { s.status with busy := false, done := true, result := .badLength } }) ∧
    (B + N ≤ s.bufsz.toNat → N < 20 ∨ N < H + 8 → exec .decode s =
      .next { s with status := { s.status with busy := false, done := true, result := .truncated } }) ∧
    (B + N ≤ s.bufsz.toNat → 20 ≤ N → H + 8 ≤ N → cal.toNat ≠ s.memRead (S + 2) 2 → exec .decode s =
      .next { s with status := { s.status with busy := false, done := true, result := .checksumMismatch } })

/-- 42_decode.md R161: the order of DECODE's checks, and the first that fails is the one reported. -/
def Obligations.DecodeReportsTheFirstFailingCheck : Prop :=
  ∀ (s : State) (B N H S : Nat) (cal : Half),
    B = s.base.toNat → N = s.len.toNat → H = ((s.pbufByte B).toNat &&& 0x0F) * 4 → S = B + H →
    cal = inetChecksum (s.pbufBytes S 2 ++ [0x00, 0x00] ++ s.pbufBytes (S + 4) (N - H - 4)) →
    ∃ t, exec .decode s = .next t ∧
      t.status.result =
        if s.bufsz.toNat < B + N then .badLength
        else if N < 20 then .truncated
        else if N < H + 8 then .truncated
        else if cal.toNat ≠ s.memRead (S + 2) 2 then .checksumMismatch
        else .ok

/-- 42_decode.md R157: of a datagram that is inside PBUF and not truncated, DECODE reports CHECKSUM_MISMATCH exactly when the
recomputed checksum differs from the stored one, as 16-bit values. -/
def Obligations.ChecksumMismatchIsAnExactComparison : Prop :=
  ∀ (s : State) (H S : Nat),
    H = ((s.pbufByte s.base.toNat).toNat &&& 0x0F) * 4 → S = s.base.toNat + H →
    s.base.toNat + s.len.toNat ≤ s.bufsz.toNat → 20 ≤ s.len.toNat → H + 8 ≤ s.len.toNat →
    ((∃ t, exec .decode s = .next t ∧ t.status.result = .checksumMismatch) ↔
      (inetChecksum (s.pbufBytes S 2 ++ [0x00, 0x00] ++ s.pbufBytes (S + 4) (s.len.toNat - H - 4))).toNat ≠
        s.memRead (S + 2) 2)

/-- 42_decode.md R151: after a successful DECODE, RX_PLOFF = S + 8 <= B + N <= BUF_SIZE and RX_PLLEN <= BUF_SIZE - 8, and
what DECODE reports depends on no PBUF byte outside [B, B + N). -/
def Obligations.DecodeStaysInsideTheDatagram : Prop :=
  (∀ s t : State, exec .decode s = .next t → t.status.result = .ok →
    (t.readReg .rxPloff).toNat = s.base.toNat + ((s.pbufByte s.base.toNat).toNat &&& 0x0F) * 4 + 8 ∧
    (t.readReg .rxPloff).toNat ≤ s.base.toNat + s.len.toNat ∧
    s.base.toNat + s.len.toNat ≤ s.bufsz.toNat ∧
    (t.readReg .rxPllen).toNat ≤ s.bufsz.toNat - 8) ∧
  (∀ s : State, s.bufsz.toNat < s.base.toNat + s.len.toNat →
    ∃ t, exec .decode s = .next t ∧ t.status.result = .badLength) ∧
  (∀ s s' : State, s.base = s'.base → s.len = s'.len → s.bufsz = s'.bufsz →
    (∀ a, s.base.toNat ≤ a → a < s.base.toNat + s.len.toNat → s.pbufByte a = s'.pbufByte a) →
    ∃ t t', exec .decode s = .next t ∧ exec .decode s' = .next t' ∧
      t.status.result = t'.status.result ∧ (t.status.result = .ok → t.rx = t'.rx))

/-- 42_decode.md R159: byte k of RX_MASK, counted from the most significant one, is payload byte k, and 0 where the payload
is shorter. -/
def Obligations.RxMaskTakesTheFirstFourPayloadBytes : Prop :=
  ∀ s t : State, exec .decode s = .next t → t.status.result = .ok →
    ∀ k, k < 4 →
      (t.readReg .rxMask).extractLsb' (8 * (3 - k)) 8 =
        if k < (t.readReg .rxPllen).toNat then s.pbufByte ((t.readReg .rxPloff).toNat + k) else 0

/-- 42_decode.md R160: a successful DECODE classifies the ICMP type and code: AMCLASS is 1 for type 17, 2 for type 18, 0 for
every other type, CODEZ is 1 exactly for code 0, the other bits read 0. -/
def Obligations.RxClassFollowsTypeAndCode : Prop :=
  ∀ s t : State, exec .decode s = .next t → t.status.result = .ok →
    (t.readReg .rxClass).extractLsb' 0 2 =
      (if (t.readReg .rxIc0).extractLsb' 24 8 = 17 then 1
       else if (t.readReg .rxIc0).extractLsb' 24 8 = 18 then 2 else 0) ∧
    (t.readReg .rxClass).getLsbD 2 = decide ((t.readReg .rxIc0).extractLsb' 16 8 = 0) ∧
    (t.readReg .rxClass).extractLsb' 3 29 = 0

/-- 42_decode.md R158: over every step, the ten decode result registers change only when an accepted DECODE completes with
OK, or at the release of reset. -/
def Obligations.RxRegistersChangeOnlyAtASuccessfulDecode : Prop :=
  ∀ s t : State, step s = .next t → t.rx ≠ s.rx →
    (s.status.busy = true ∧ decodeWord s.cmd = .ok .decode ∧ t.status.result = .ok ∧ t.status.busy = false) ∨
    (s.rst = true ∧ ∃ rest, s.inbox = .rst false :: rest)

/-- 10_state.md R32: over every step, CSUM changes only when an accepted ENCODE, ENCODE_AM or CHECKSUM completes with OK, or
at the release of reset; its upper 16 bits read 0. -/
def Obligations.CsumChangesOnlyAtASuccessfulChecksumCommand : Prop :=
  (∀ s t : State, step s = .next t → t.csum ≠ s.csum →
    (s.status.busy = true ∧ t.status.result = .ok ∧ t.status.busy = false ∧
      (decodeWord s.cmd = .ok .encode ∨ decodeWord s.cmd = .ok .encodeAm ∨ decodeWord s.cmd = .ok .checksum)) ∨
    (s.rst = true ∧ ∃ rest, s.inbox = .rst false :: rest)) ∧
  (∀ s : State, (s.readReg .csum).extractLsb' 16 16 = 0)

/-- 20_memory.md R74: a command writes no PBUF byte outside its footprint, DECODE, CHECKSUM and NOP write none, and a command
that fails writes none. -/
def Obligations.CommandsWriteOnlyTheirFootprint : Prop :=
  ∀ (i : Instr) (s : State), ∃ t, exec i s = .next t ∧
    ∀ a, t.pbufByte a ≠ s.pbufByte a →
      t.status.result = .ok ∧ s.base.toNat ≤ a ∧
      ((i = .encode ∧ a < s.base.toNat + 8 + s.len.toNat) ∨
       ((i = .encodeAm ∨ i = .pack) ∧ a < s.base.toNat + 8 + 4))

/-! ## The host window -/

/-- The twenty registers at their offsets, as the table of 10_state.md R22 writes them. -/
def Sys2Proof.Machine.offsetTable : List (BitVec 17 × Reg) :=
  [(0x00, .cmd), (0x04, .status), (0x08, .config), (0x0C, .len), (0x10, .base), (0x14, .txh0), (0x18, .txh1), (0x1C, .mask),
   (0x20, .csum), (0x24, .rxIp0)] ++
  [(0x28, .rxIp1), (0x2C, .rxSrc), (0x30, .rxDst), (0x34, .rxIc0), (0x38, .rxIc1), (0x3C, .rxPloff), (0x40, .rxPllen),
   (0x44, .rxMask), (0x48, .rxClass), (0x4C, .bufsz)]

/-- 20_memory.md R61, R64, 10_state.md R22: a 4-byte read at each of the twenty offsets, written as numbers, returns that
register's value and changes nothing else, whether or not the engine is BUSY; the twenty are all the registers, and
`Reg.windowOffset`, by which other statements name an offset, is that number. -/
def Obligations.RegisterReadsHaveNoSideEffect : Prop :=
  (∀ r : Reg, (r.windowOffset, r) ∈ offsetTable) ∧
  (∀ p ∈ offsetTable, p.2.windowOffset = p.1) ∧
  (∀ (s : State) (o : BitVec 17) (r : Reg) (rest : List Event), (o, r) ∈ offsetTable → s.rst = false →
    s.inbox = .txn ⟨.read, o, 2, 0⟩ :: rest →
    step s = .next { s with inbox := rest, rdata := s.readReg r })

/-- 10_state.md R24: the fields of STATUS as the host reads them, and the W1C effect of a write. -/
def Obligations.StatusFieldsAndWriteOneToClear : Prop :=
  (∀ s : State,
    (s.readReg .status).getLsbD 0 = s.status.busy ∧
    (s.readReg .status).getLsbD 1 = s.status.done ∧
    (s.readReg .status).extractLsb' 2 2 = 0 ∧
    (s.readReg .status).extractLsb' 4 4 =
      (match s.status.result with
       | .ok => 0
       | .truncated => 1
       | .checksumMismatch => 2
       | .badLength => 3
       | .illegalOp => 4) ∧
    (s.readReg .status).getLsbD 8 = s.status.overrun ∧
    (s.readReg .status).getLsbD 9 = s.status.buserr ∧
    (s.readReg .status).extractLsb' 10 22 = 0) ∧
  (∀ (s : State) (w : Word), s.transact (Txn.writeAt Reg.status.windowOffset .w4 w) =
    { s with status := { s.status with
      done := if w.getLsbD 1 then false else s.status.done
      overrun := if w.getLsbD 8 then false else s.status.overrun
      buserr := if w.getLsbD 9 then false else s.status.buserr } })

/-- 10_state.md R25 and R27 to R31, 30_encoding.md R94: a write to CONFIG and, while the engine is IDLE, to an operand
register sets that register's fields from the bits the rule names and changes nothing else, PBUF included; what each register
then reads, reserved bits as 0; and in every state TXH0 and TXH1 read their fields in those bits. -/
def Obligations.WritableRegistersReadBack : Prop :=
  ∀ (s : State) (w : Word),
    s.transact (Txn.writeAt Reg.config.windowOffset .w4 w) = { s with config := ⟨w.getLsbD 0⟩ } ∧
    (s.status.busy = false →
      s.transact (Txn.writeAt Reg.len.windowOffset .w4 w) = { s with len := w } ∧
      s.transact (Txn.writeAt Reg.base.windowOffset .w4 w) = { s with base := w } ∧
      s.transact (Txn.writeAt Reg.txh0.windowOffset .w4 w) =
        { s with txh0 := { typ := w.extractLsb' 24 8, code := w.extractLsb' 16 8 } } ∧
      s.transact (Txn.writeAt Reg.txh1.windowOffset .w4 w) =
        { s with txh1 := { id := w.extractLsb' 16 16, seq := w.extractLsb' 0 16 } } ∧
      s.transact (Txn.writeAt Reg.mask.windowOffset .w4 w) = { s with mask := w }) ∧
    ((s.readReg .txh0).extractLsb' 24 8 = s.txh0.typ ∧ (s.readReg .txh0).extractLsb' 16 8 = s.txh0.code ∧
      (s.readReg .txh1).extractLsb' 16 16 = s.txh1.id ∧ (s.readReg .txh1).extractLsb' 0 16 = s.txh1.seq) ∧
    (∀ r : Reg, (s.transact (Txn.writeAt Reg.config.windowOffset .w4 w)).readReg r =
      if r = .config then w &&& 0x00000001 else s.readReg r) ∧
    (s.status.busy = false →
      ∀ q : Reg, q = .len ∨ q = .base ∨ q = .txh0 ∨ q = .txh1 ∨ q = .mask →
        ∀ r : Reg, (s.transact (Txn.writeAt q.windowOffset .w4 w)).readReg r =
          if r = q then (if q = .txh0 then w &&& 0xFFFF0000 else w) else s.readReg r)

/-- 10_state.md R22: writes to the twelve read-only registers are ignored without error. -/
def Obligations.ReadOnlyRegistersIgnoreWrites : Prop :=
  ∀ (s : State) (w : Word) (r : Reg),
    r ∈ [Reg.csum, .rxIp0, .rxIp1, .rxSrc, .rxDst, .rxIc0, .rxIc1, .rxPloff, .rxPllen, .rxMask, .rxClass, .bufsz] →
    s.transact (Txn.writeAt r.windowOffset .w4 w) = s

/-- 20_memory.md R65: an aligned PBUF-window read inside the buffer, by an IDLE block, returns MemRead(i, n) zero-extended
and changes nothing else. -/
def Obligations.PbufWindowReadReturnsBigEndianValue : Prop :=
  ∀ (s : State) (i : BitVec 16) (n : Width), s.status.busy = false →
    i.toNat % n.bytes = 0 → i.toNat + n.bytes ≤ s.bufsz.toNat →
    ∃ t, s.transact (Txn.readAt (BitVec.ofNat 17 (0x10000 + i.toNat)) n) = t ∧
      t.rdata.toNat = ((List.range n.bytes).map
        fun k => (s.pbufByte (i.toNat + k)).toNat * 256 ^ (n.bytes - 1 - k)).sum ∧
      { t with rdata := s.rdata } = s

/-- 20_memory.md R66, R62: an aligned PBUF-window write inside the buffer, by an IDLE block, writes the low n bytes of w,
most significant byte at the lowest index, and changes nothing else. -/
def Obligations.PbufWindowWriteIsBigEndian : Prop :=
  ∀ (s : State) (i : BitVec 16) (n : Width) (w : Word), s.status.busy = false →
    i.toNat % n.bytes = 0 → i.toNat + n.bytes ≤ s.bufsz.toNat →
    ∃ t, s.transact (Txn.writeAt (BitVec.ofNat 17 (0x10000 + i.toNat)) n w) = t ∧
      (∀ k, k < n.bytes → (t.pbufByte (i.toNat + k)).toNat = (w.toNat >>> (8 * (n.bytes - 1 - k))) &&& 0xFF) ∧
      (∀ a, a < i.toNat ∨ i.toNat + n.bytes ≤ a → t.pbufByte a = s.pbufByte a) ∧
      { t with pbuf := s.pbuf } = s

/-- 20_memory.md R71: a 4-byte write of v followed by 1-byte and 2-byte reads returns the parts of v in network order. -/
def Obligations.MixedWidthReadsSeeTheSameBytes : Prop :=
  ∀ (s : State) (i : BitVec 16) (v : Word), s.status.busy = false → i.toNat % 4 = 0 → i.toNat + 4 ≤ s.bufsz.toNat →
    ∀ t, t = s.transact (Txn.writeAt (pbufOffset i) .w4 v) →
      (t.transact (Txn.readAt (pbufOffset i) .w1)).rdata = (v.extractLsb' 24 8).setWidth 32 ∧
      (t.transact (Txn.readAt (pbufOffset (i + 1)) .w1)).rdata = (v.extractLsb' 16 8).setWidth 32 ∧
      (t.transact (Txn.readAt (pbufOffset (i + 2)) .w1)).rdata = (v.extractLsb' 8 8).setWidth 32 ∧
      (t.transact (Txn.readAt (pbufOffset (i + 3)) .w1)).rdata = (v.extractLsb' 0 8).setWidth 32 ∧
      (t.transact (Txn.readAt (pbufOffset i) .w2)).rdata = (v.extractLsb' 16 16).setWidth 32 ∧
      (t.transact (Txn.readAt (pbufOffset (i + 2)) .w2)).rdata = (v.extractLsb' 0 16).setWidth 32 ∧
      (t.transact (Txn.readAt (pbufOffset i) .w4)).rdata = v

/-- The not-performed cases of 20_memory.md R68, written out: the invalid width code; in the register window a width other
than 4, a misaligned offset or one above 0x4C, or a write to an operand register while BUSY; in the PBUF window a
misaligned index, bytes beyond the buffer, or any access while BUSY. -/
def Sys2Proof.Machine.notPerformedCase (x : Txn) (s : State) : Prop :=
  x.size = 3 ∨
  (x.addr.toNat < 0x10000 ∧
    (x.size ≠ 2 ∨ x.addr.toNat % 4 ≠ 0 ∨ 0x4C < x.addr.toNat ∨
      (s.status.busy = true ∧ x.dir = .write ∧ 0x0C ≤ x.addr.toNat ∧ x.addr.toNat ≤ 0x1C))) ∨
  (0x10000 ≤ x.addr.toNat ∧
    ((x.addr.toNat - 0x10000) % 2 ^ x.size.toNat ≠ 0 ∨
      s.bufsz.toNat < x.addr.toNat - 0x10000 + 2 ^ x.size.toNat ∨ s.status.busy = true))

/-- 20_memory.md R67, R68, R69, R80: a transaction that is not performed reads 0, writes nothing and sets BUSERR, and the listed
cases are exactly the ones that set BUSERR. That a malformed access at CMD's offset while BUSY is one of them, and does not set
OVERRUN, is the model's reading (log entry 14). -/
def Obligations.NotPerformedAccessesOnlySetBuserr : Prop :=
  ∀ (s : State) (x : Txn),
    (notPerformedCase x s → s.transact x =
      { s with status := { s.status with buserr := true }, rdata := if x.dir = .read then 0 else s.rdata }) ∧
    (¬notPerformedCase x s → (s.transact x).status.buserr = true → s.status.buserr = true)

/-- 20_memory.md R69: the busy interlock, case by case, for a BUSY engine. -/
def Obligations.BusyInterlock : Prop :=
  ∀ s : State, s.status.busy = true →
    (∀ x : Txn, 0x10000 ≤ x.addr.toNat → s.transact x =
      { s with status := { s.status with buserr := true }, rdata := if x.dir = .read then 0 else s.rdata }) ∧
    (∀ (r : Reg) (w : Word), r = .len ∨ r = .base ∨ r = .txh0 ∨ r = .txh1 ∨ r = .mask →
      s.transact (Txn.writeAt r.windowOffset .w4 w) = { s with status := { s.status with buserr := true } }) ∧
    (∀ w : Word, s.transact (Txn.writeAt Reg.cmd.windowOffset .w4 w) =
      { s with status := { s.status with overrun := true } }) ∧
    (∀ w : Word, s.transact (Txn.writeAt Reg.config.windowOffset .w4 w) =
      { s with config := ⟨w.getLsbD 0⟩ }) ∧
    (∀ w : Word, ∃ st : Status, st.busy = true ∧ st.result = s.status.result ∧
      st.done = (s.status.done && !w.getLsbD 1) ∧ st.overrun = (s.status.overrun && !w.getLsbD 8) ∧
      st.buserr = (s.status.buserr && !w.getLsbD 9) ∧
      s.transact (Txn.writeAt Reg.status.windowOffset .w4 w) = { s with status := st }) ∧
    (∀ (r : Reg) (w : Word), r.isReadOnly = true → s.transact (Txn.writeAt r.windowOffset .w4 w) = s) ∧
    (∀ r : Reg, s.transact (Txn.readAt r.windowOffset .w4) = { s with rdata := s.readReg r })

/-- 20_memory.md R61, R63, R75: with rst released, a step whose event is a host transaction is that transaction, on the state
without the event; a bus access reaches the block exactly in [BLOCK_BASE, BLOCK_BASE + 0x20000), where it is the transaction at
its window offset; elsewhere it has no effect on the block. -/
def Obligations.HostAddressesReachTheBlockOnlyInsideItsWindow : Prop :=
  (∀ (s : State) (x : Txn) (rest : List Event), s.rst = false → s.inbox = .txn x :: rest →
    step s = .next (State.transact x { s with inbox := rest })) ∧
  (∀ (s : State) (a : Nat) (d : Dir) (z : BitVec 2) (w : Word) (rest : List Event),
    s.rst = false → s.inbox = .access a d z w :: rest →
    (∀ o : BitVec 17, a = Config.blockBase + o.toNat →
      step s = .next (State.transact ⟨d, o, z, w⟩ { s with inbox := rest })) ∧
    (a < Config.blockBase ∨ Config.blockBase + 0x20000 ≤ a → step s = .next { s with inbox := rest }))

/-- 60_exceptions.md R205: irq = STATUS.DONE & CONFIG.IE; every completion sets it when enabled, whatever its result; an
acknowledging STATUS write, or the next acceptance, clears it; writing IE = 0 masks it without clearing DONE. -/
def Obligations.IrqFollowsDoneAndEnable : Prop :=
  ∀ s : State,
    s.irq = ((s.readReg .status).getLsbD 1 && (s.readReg .config).getLsbD 0) ∧
    (∃ t, engineCommand s = .next t ∧ t.irq = s.config.ie) ∧
    (∀ w : Word, w.getLsbD 1 = true → (s.transact (Txn.writeAt Reg.status.windowOffset .w4 w)).irq = false) ∧
    (∀ w : Word, s.status.busy = false → (s.transact (Txn.writeAt Reg.cmd.windowOffset .w4 w)).irq = false) ∧
    (∀ w : Word, w.getLsbD 0 = false →
      (s.transact (Txn.writeAt Reg.config.windowOffset .w4 w)).irq = false ∧
      (s.transact (Txn.writeAt Reg.config.windowOffset .w4 w)).status.done = s.status.done)

/-- 60_exceptions.md R206: OVERRUN and BUSERR are sticky (each stays 1 until the host writes 1 to its STATUS bit, or reset),
and a step that sets either leaves irq alone. -/
def Obligations.StickyFlagsStayUntilCleared : Prop :=
  ∀ s t : State, step s = .next t →
    (s.status.overrun = true → t.status.overrun = false →
      (∃ x, s.nextTxn = some x ∧ x.dir = .write ∧ x.addr = Reg.status.windowOffset ∧ x.wdata.getLsbD 8 = true) ∨
      (s.rst = true ∧ ∃ rest, s.inbox = .rst false :: rest)) ∧
    (s.status.buserr = true → t.status.buserr = false →
      (∃ x, s.nextTxn = some x ∧ x.dir = .write ∧ x.addr = Reg.status.windowOffset ∧ x.wdata.getLsbD 9 = true) ∨
      (s.rst = true ∧ ∃ rest, s.inbox = .rst false :: rest)) ∧
    ((s.status.overrun = false ∧ t.status.overrun = true) ∨ (s.status.buserr = false ∧ t.status.buserr = true) →
      t.irq = s.irq)

/-- 60_exceptions.md R207 and 70_reset_and_hazards.md R230: no step faults, and a step is refused exactly when a host
transaction reaches the block while rst is asserted. -/
def Obligations.StepStopsOnlyForATransactionDuringReset : Prop :=
  (∀ (s : State) (f : Fault), step s ≠ .fault f) ∧
  (∀ (s : State) (q : Refusal), step s = .refused q ↔
    q = .transactionDuringReset ∧ s.rst = true ∧ ∃ x, s.nextTxn = some x)

/-- 70_reset_and_hazards.md R230: the machine of a host that issues no transaction during reset never stops, over runs of
any length. -/
def Obligations.ObedientHostNeverStops : Prop :=
  ∀ (n : Nat) (s : State), s.hostObeysReset = true →
    ∃ t : State, Host.Core.run core n s = .next t ∧ t.hostObeysReset = true

/-! ## The Internet checksum -/

/-- 43_checksum.md R184: the closed form of Fold16, and the checksum is 0xFFFF exactly for an all-zero sequence. -/
def Obligations.Fold16ClosedForm : Prop :=
  fold16 0 = 0 ∧
  (∀ S : Nat, 0 < S → fold16 S = (S - 1) % 0xFFFF + 1) ∧
  (∀ S : Nat, fold16 S % 0xFFFF = S % 0xFFFF) ∧
  (∀ s : List Byte, inetChecksum s = 0xFFFF ↔ ∀ b ∈ s, b = 0)

/-- 43_checksum.md R186: the 16-bit adder with end-around carry computes the Internet checksum of every byte sequence. -/
def Obligations.EndAroundAdderComputesTheChecksum : Prop :=
  ∀ s : List Byte, inetAdder s = inetChecksum s

/-- 43_checksum.md R187: a sequence whose 16-bit field at an even offset holds the checksum computed over that field as zero
has the checksum 0x0000. -/
def Obligations.StoredChecksumMakesTheSumZero : Prop :=
  ∀ (pre post : List Byte) (c : Half), pre.length % 2 = 0 → c = inetChecksum (pre ++ [0x00, 0x00] ++ post) →
    inetChecksum (pre ++ [c.extractLsb' 8 8, c.extractLsb' 0 8] ++ post) = 0x0000

/-- 43_checksum.md R189: an error that leaves Sum congruent modulo 0xFFFF, in a sequence that is not all zero before or
after it, is not detected; two swapped 16-bit words are such an error. -/
def Obligations.CongruentSumsAreNotDetected : Prop :=
  (∀ s t : List Byte, inetSum s % 0xFFFF = inetSum t % 0xFFFF → 0 < inetSum s → 0 < inetSum t →
    inetChecksum s = inetChecksum t) ∧
  (∀ (pre mid post : List Byte) (a b c d : Byte), pre.length % 2 = 0 → mid.length % 2 = 0 →
    inetChecksum (pre ++ [a, b] ++ mid ++ [c, d] ++ post) = inetChecksum (pre ++ [c, d] ++ mid ++ [a, b] ++ post))

/-- 41_encode.md R133: after a successful ENCODE or ENCODE_AM the checksum of the finished segment, its stored checksum
included, is 0x0000. -/
def Obligations.EncodedSegmentSumsToZero : Prop :=
  (∀ s : State, s.base.toNat + 8 + s.len.toNat ≤ s.bufsz.toNat →
    ∃ t, exec .encode s = .next t ∧ t.status.result = .ok ∧
      inetChecksum (t.pbufBytes s.base.toNat (8 + s.len.toNat)) = 0x0000) ∧
  (∀ s : State, s.base.toNat + 12 ≤ s.bufsz.toNat →
    ∃ t, exec .encodeAm s = .next t ∧ t.status.result = .ok ∧
      inetChecksum (t.pbufBytes s.base.toNat 12) = 0x0000)

/-- 43_checksum.md R188: CHECKSUM over an IPv4 header (LEN = HLEN, at least 20) whose field at offset 10 holds the checksum
of the header with that field zero gives CSUM = 0. -/
def Obligations.ChecksumVerifiesAnIpv4Header : Prop :=
  ∀ (s : State) (B H : Nat) (c : Half), B = s.base.toNat → H = s.len.toNat →
    H = ((s.pbufByte B).toNat &&& 0x0F) * 4 → 20 ≤ H → B + H ≤ s.bufsz.toNat →
    c = inetChecksum (s.pbufBytes B 10 ++ [0x00, 0x00] ++ s.pbufBytes (B + 12) (H - 12)) →
    s.memRead (B + 10) 2 = c.toNat →
    ∃ t, exec .checksum s = .next t ∧ t.status.result = .ok ∧ t.readReg .csum = 0

/-- 42_decode.md R162, the round-trip law: what ENCODE wrote behind an IPv4 header of H bytes, DECODE reads back. `s` is the
state before ENCODE (BASE = B + H, LEN = P), `t` the one after it, `u` any state whose BASE is B and LEN H + 8 + P and
whose PBUF agrees with `t` on the datagram. -/
def Obligations.DecodeInvertsEncode : Prop :=
  ∀ (s t u : State) (B H P : Nat),
    s.base.toNat = B + H → s.len.toNat = P → B + H + 8 + P ≤ s.bufsz.toNat → exec .encode s = .next t →
    20 ≤ H → H = ((t.pbufByte B).toNat &&& 0x0F) * 4 →
    u.bufsz = s.bufsz → u.base.toNat = B → u.len.toNat = H + 8 + P →
    (∀ a, B ≤ a → a < B + H + 8 + P → u.pbufByte a = t.pbufByte a) →
    ∃ v, exec .decode u = .next v ∧ v.status.result = .ok ∧
      (v.readReg .rxIc0).extractLsb' 24 8 = s.txh0.typ ∧
      (v.readReg .rxIc0).extractLsb' 16 8 = s.txh0.code ∧
      (v.readReg .rxIc1).toNat = s.txh1.id.toNat * 2 ^ 16 + s.txh1.seq.toNat ∧
      (v.readReg .rxPloff).toNat = B + H + 8 ∧
      (v.readReg .rxPllen).toNat = P ∧
      v.pbufBytes (B + H + 8) P = s.pbufBytes (B + H + 8) P

/-- 42_decode.md R163: with exactly one bit of the encoded segment flipped (bit k of byte e), DECODE fails with
CHECKSUM_MISMATCH. `s`, `t`, `u` as in the round-trip law. -/
def Obligations.SingleBitErrorsAreDetected : Prop :=
  ∀ (s t u : State) (B H P e k : Nat),
    s.base.toNat = B + H → s.len.toNat = P → B + H + 8 + P ≤ s.bufsz.toNat → exec .encode s = .next t →
    20 ≤ H → H = ((t.pbufByte B).toNat &&& 0x0F) * 4 →
    u.bufsz = s.bufsz → u.base.toNat = B → u.len.toNat = H + 8 + P →
    B + H ≤ e → e < B + H + 8 + P → k < 8 →
    (∀ a, B ≤ a → a < B + H + 8 + P → a ≠ e → u.pbufByte a = t.pbufByte a) →
    u.pbufByte e = t.pbufByte e ^^^ (1#8 <<< k) →
    ∃ v, exec .decode u = .next v ∧ v.status.result = .checksumMismatch

/-! ## Liveness -/

/-- 70_reset_and_hazards.md R242, 40_dispatch.md R113: no weakly fair run stays BUSY for ever with rst released, whatever the
events are; and while no event drives rst, a weakly fair run never stops and is IDLE again and again, so every accepted command
completes. -/
def Obligations.NoFairRunStaysBusy : Prop :=
  (∀ (events : Nat → Event) (s : State), s.weaklyFair events →
    ∀ n, ¬∀ m, n ≤ m → ∃ t, s.after events m = .next t ∧ t.status.busy = true ∧ t.rst = false) ∧
  (∀ (events : Nat → Event) (s : State), s.rst = false → (∀ n l, events n ≠ .rst l) → s.weaklyFair events →
    ∀ n, ∃ m t, n ≤ m ∧ s.after events m = .next t ∧ t.status.busy = false)

/-- 70_reset_and_hazards.md R242, 30_encoding.md R102: every `wait` loop ends on every fair run. A host that is at a `wait`, in
any program in which the loop's label does not stand earlier, with any block whose rst is released, comes after finitely many
turns to the operation behind the loop, having read BUSY = 0 from an IDLE block. That a fair run also lets the host go on is the
model's reading (log entry 21), and that the label does not stand earlier is asked because of log entry 18. -/
def Obligations.EveryWaitLoopEnds : Prop :=
  ∀ (pre post : List HostOp) (l t : Nat) (r : HostRun) (schedule : Nat → Bool),
    r.prog = pre ++ HostOp.wait l t ++ post → HostOp.label l ∉ pre → r.pc = pre.length → r.ipc.rst = false →
    r.Fair schedule →
    ∃ n q, r.after schedule n = .next q ∧ q.pc = pre.length + 3 ∧ (q.temp t).getLsbD 0 = false ∧
      q.ipc.status.busy = false
end

