-- ==== Sys2Proof/Laws/Checksum.lean ====
section
/-! SUPPORT. The folding loop of 43_checksum.md R182, said once: it stops, each pass is the rule's, and what it returns has
no carry left. -/

namespace Sys2Proof.Machine

/-- One pass of the loop as plain arithmetic. -/
theorem fold16_pass_eq (S : Nat) : (S &&& 0xFFFF) + (S >>> 16) = S % 65536 + S / 65536 := by
  rw [Nat.and_two_pow_sub_one_eq_mod S 16, Nat.shiftRight_eq_div_pow]

/-- A pass over a value with a carry makes it smaller (43_checksum.md R182). -/
theorem fold16_pass_lt {S : Nat} (h : 0xFFFF < S) : (S &&& 0xFFFF) + (S >>> 16) < S := by
  rw [fold16_pass_eq]; omega

/-- A pass keeps the value modulo 0xFFFF (43_checksum.md R184). -/
theorem fold16_pass_mod (S : Nat) : ((S &&& 0xFFFF) + (S >>> 16)) % 65535 = S % 65535 := by
  rw [fold16_pass_eq]; omega

/-- More fuel than the value changes nothing. -/
theorem fold16Loop_fuel (f S : Nat) (h : S ≤ f) : fold16Loop f S = fold16Loop S S := by
  induction S using Nat.strong_induction_on generalizing f with
  | _ S ih =>
    cases f with
    | zero => rw [Nat.le_zero.mp h]
    | succ n =>
      cases S with
      | zero => rfl
      | succ S =>
        simp only [fold16Loop]
        split
        · rename_i hlt
          have hp := fold16_pass_lt hlt
          rw [ih _ hp n (by omega), ih _ hp S (by omega)]
        · rfl

/-- The loop of 43_checksum.md R182, as an equation. -/
theorem fold16_eq (S : Nat) :
    fold16 S = if 0xFFFF < S then fold16 ((S &&& 0xFFFF) + (S >>> 16)) else S := by
  cases S with
  | zero => rfl
  | succ S =>
    simp only [fold16, fold16Loop]
    split
    · rename_i hlt
      rw [fold16Loop_fuel S _ (by have := fold16_pass_lt hlt; omega)]
    · rfl

/-- A value without a carry is its own fold. -/
@[simp] theorem fold16_of_le {S : Nat} (h : S ≤ 0xFFFF) : fold16 S = S := by
  rw [fold16_eq, if_neg (by omega)]

/-- The fold fits 16 bits (43_checksum.md R182). -/
theorem fold16_le (S : Nat) : fold16 S ≤ 0xFFFF := by
  induction S using Nat.strong_induction_on with
  | _ S ih =>
    rw [fold16_eq]
    split
    · rename_i h; exact ih _ (fold16_pass_lt h)
    · omega

/-- The checksum as a natural. -/
@[simp] theorem inetChecksum_toNat (s : List Byte) : (inetChecksum s).toNat = 0xFFFF - fold16 (inetSum s) := by
  simp only [inetChecksum, BitVec.toNat_ofNat]
  exact Nat.mod_eq_of_lt (by omega)

@[simp] theorem inetWords_nil : inetWords [] = [] := rfl
@[simp] theorem inetWords_singleton (a : Byte) : inetWords [a] = [a.toNat * 256] := rfl
@[simp] theorem inetWords_cons_cons (a b : Byte) (rest : List Byte) :
    inetWords (a :: b :: rest) = (a.toNat * 256 + b.toNat) :: inetWords rest := rfl
@[simp] theorem inetSum_nil : inetSum [] = 0 := rfl
@[simp] theorem inetSum_singleton (a : Byte) : inetSum [a] = a.toNat * 256 := by simp [inetSum]
@[simp] theorem inetSum_cons_cons (a b : Byte) (rest : List Byte) :
    inetSum (a :: b :: rest) = a.toNat * 256 + b.toNat + inetSum rest := by simp [inetSum]

/-- The sum splits at a word boundary, which is any even index (43_checksum.md R180). -/
theorem inetSum_append {s : List Byte} (h : s.length % 2 = 0) (t : List Byte) :
    inetSum (s ++ t) = inetSum s + inetSum t := by
  induction s using inetWords.induct with
  | case1 => simp
  | case2 a => simp at h
  | case3 a b rest ih =>
    simp only [List.length_cons] at h
    simp only [List.cons_append, inetSum_cons_cons, ih (by omega)]
    omega

end Sys2Proof.Machine
end

