-- ==== Sys2Proof/Laws/Memory.lean ====
section
/-! SUPPORT. The basic laws of PBUF: a byte reads back what was written last, every other byte is left alone, and every
write keeps the canonical form and the bound. -/

namespace Sys2Proof.Machine

/-- A byte read after one byte has been written. -/
@[simp] theorem Memory.get?_set (m : Memory) (i j : Nat) (b : Byte) :
    Memory.get? (Memory.set m i b) j = if j = i then some b else Memory.get? m j := by
  induction m with
  | nil => simp [Memory.set, Memory.get?]
  | cons c rest ih =>
    obtain ⟨k, d⟩ := c
    simp only [Memory.set]
    split
    · simp [Memory.get?]
    · split
      · subst k; by_cases h : j = i <;> simp [Memory.get?, h]
      · by_cases h : j = k
        · subst h; simp [Memory.get?, show j ≠ i by omega]
        · simp [Memory.get?, h, ih]

/-- A byte read after a sequence of bytes has been written. -/
theorem Memory.get?_setBytes (m : Memory) (a : Nat) (bs : List Byte) (j : Nat) :
    Memory.get? (Memory.setBytes m a bs) j =
      if a ≤ j ∧ j < a + bs.length then bs[j - a]? else Memory.get? m j := by
  induction bs generalizing m a with
  | nil => simp [Memory.setBytes]
  | cons b rest ih =>
    simp only [Memory.setBytes, ih, Memory.get?_set, List.length_cons]
    by_cases h : j = a
    · subst h; simp
    · by_cases h1 : a + 1 ≤ j ∧ j < a + 1 + rest.length
      · rw [if_pos h1, if_pos (by omega), show j - a = (j - (a + 1)) + 1 by omega]
        simp
      · rw [if_neg h1, if_neg h, if_neg (by omega)]

theorem Memory.risingFrom_mono {lo lo' : Nat} {m : Memory} (h : Memory.risingFrom lo m = true) (hl : lo' ≤ lo) :
    Memory.risingFrom lo' m = true := by
  cases m with
  | nil => rfl
  | cons c rest =>
    simp only [Memory.risingFrom, Bool.and_eq_true, decide_eq_true_eq] at h ⊢
    exact ⟨by omega, h.2⟩

theorem Memory.risingFrom_set {lo i : Nat} {b : Byte} {m : Memory} (h : Memory.risingFrom lo m = true) (hi : lo ≤ i) :
    Memory.risingFrom lo (Memory.set m i b) = true := by
  induction m generalizing lo with
  | nil => simp [Memory.set, Memory.risingFrom, hi]
  | cons c rest ih =>
    obtain ⟨k, d⟩ := c
    simp only [Memory.risingFrom, Bool.and_eq_true, decide_eq_true_eq] at h
    simp only [Memory.set]
    split
    · simp only [Memory.risingFrom, Bool.and_eq_true, decide_eq_true_eq]
      exact ⟨hi, by omega, h.2⟩
    · split
      · subst k; simp only [Memory.risingFrom, Bool.and_eq_true, decide_eq_true_eq]
        exact ⟨hi, h.2⟩
      · simp only [Memory.risingFrom, Bool.and_eq_true, decide_eq_true_eq]
        exact ⟨h.1, ih h.2 (by omega)⟩

/-- Writing a byte keeps the canonical form. -/
theorem Memory.wf_set {m : Memory} (h : Memory.wf m = true) (i : Nat) (b : Byte) :
    Memory.wf (Memory.set m i b) = true :=
  Memory.risingFrom_set h (Nat.zero_le i)

/-- Writing bytes keeps the canonical form. -/
theorem Memory.wf_setBytes {m : Memory} (h : Memory.wf m = true) (a : Nat) (bs : List Byte) :
    Memory.wf (Memory.setBytes m a bs) = true := by
  induction bs generalizing m a with
  | nil => exact h
  | cons b rest ih => exact ih (Memory.wf_set h a b) (a + 1)

theorem Memory.below_set {n : Nat} {m : Memory} (h : Memory.below n m = true) {i : Nat} (hi : i < n) (b : Byte) :
    Memory.below n (Memory.set m i b) = true := by
  induction m with
  | nil => simpa [Memory.below, Memory.set] using hi
  | cons c rest ih =>
    obtain ⟨k, d⟩ := c
    simp only [Memory.below, List.all_cons, Bool.and_eq_true, decide_eq_true_eq] at h ih
    simp only [Memory.set]
    split
    · simp [Memory.below, hi, h.1, h.2]
    · split
      · simp [Memory.below, hi, h.2]
      · simp [Memory.below, h.1, ih h.2]

/-- Writing bytes inside the bound keeps the bound. -/
theorem Memory.below_setBytes {n : Nat} {m : Memory} (h : Memory.below n m = true) {a : Nat} {bs : List Byte}
    (ha : a + bs.length ≤ n) : Memory.below n (Memory.setBytes m a bs) = true := by
  induction bs generalizing m a with
  | nil => exact h
  | cons b rest ih =>
    simp only [List.length_cons] at ha
    exact ih (Memory.below_set h (by omega) b) (by omega)

/-- Reset memory is in the canonical form. -/
theorem Memory.wf_nil : Memory.wf [] = true := rfl

end Sys2Proof.Machine
end

