-- ==== Sys2Proof/Laws/State.lean ====
section
/-! SUPPORT. One lemma per field per update of State and STATUS, true by rfl, so that no later proof unfolds a record
update. -/

namespace Sys2Proof.Machine

@[simp] theorem Status.accepted_busy (st : Status) : st.accepted.busy = true := rfl
@[simp] theorem Status.accepted_done (st : Status) : st.accepted.done = false := rfl
@[simp] theorem Status.accepted_result (st : Status) : st.accepted.result = st.result := rfl
@[simp] theorem Status.accepted_overrun (st : Status) : st.accepted.overrun = st.overrun := rfl
@[simp] theorem Status.accepted_buserr (st : Status) : st.accepted.buserr = st.buserr := rfl
@[simp] theorem Status.overran_busy (st : Status) : st.overran.busy = st.busy := rfl
@[simp] theorem Status.overran_done (st : Status) : st.overran.done = st.done := rfl
@[simp] theorem Status.overran_result (st : Status) : st.overran.result = st.result := rfl
@[simp] theorem Status.overran_overrun (st : Status) : st.overran.overrun = true := rfl
@[simp] theorem Status.overran_buserr (st : Status) : st.overran.buserr = st.buserr := rfl
@[simp] theorem Status.busErred_busy (st : Status) : st.busErred.busy = st.busy := rfl
@[simp] theorem Status.busErred_done (st : Status) : st.busErred.done = st.done := rfl
@[simp] theorem Status.busErred_result (st : Status) : st.busErred.result = st.result := rfl
@[simp] theorem Status.busErred_overrun (st : Status) : st.busErred.overrun = st.overrun := rfl
@[simp] theorem Status.busErred_buserr (st : Status) : st.busErred.buserr = true := rfl
@[simp] theorem Status.completed_busy (c : ResultCode) (st : Status) : (st.completed c).busy = false := rfl
@[simp] theorem Status.completed_done (c : ResultCode) (st : Status) : (st.completed c).done = true := rfl
@[simp] theorem Status.completed_result (c : ResultCode) (st : Status) : (st.completed c).result = c := rfl
@[simp] theorem Status.completed_overrun (c : ResultCode) (st : Status) : (st.completed c).overrun = st.overrun := rfl
@[simp] theorem Status.completed_buserr (c : ResultCode) (st : Status) : (st.completed c).buserr = st.buserr := rfl
@[simp] theorem Status.written_busy (w : Word) (st : Status) : (st.written w).busy = st.busy := rfl
@[simp] theorem Status.written_done (w : Word) (st : Status) : (st.written w).done = (st.done && !w.getLsbD 1) := rfl
@[simp] theorem Status.written_result (w : Word) (st : Status) : (st.written w).result = st.result := rfl
@[simp] theorem Status.written_overrun (w : Word) (st : Status) : (st.written w).overrun = (st.overrun && !w.getLsbD 8) := rfl
@[simp] theorem Status.written_buserr (w : Word) (st : Status) : (st.written w).buserr = (st.buserr && !w.getLsbD 9) := rfl

@[simp] theorem State.complete_cmd (c : ResultCode) (s : State) :
    (s.complete c).cmd = s.cmd := rfl
@[simp] theorem State.complete_status (c : ResultCode) (s : State) :
    (s.complete c).status = s.status.completed c := rfl
@[simp] theorem State.complete_config (c : ResultCode) (s : State) :
    (s.complete c).config = s.config := rfl
@[simp] theorem State.complete_len (c : ResultCode) (s : State) :
    (s.complete c).len = s.len := rfl
@[simp] theorem State.complete_base (c : ResultCode) (s : State) :
    (s.complete c).base = s.base := rfl
@[simp] theorem State.complete_txh0 (c : ResultCode) (s : State) :
    (s.complete c).txh0 = s.txh0 := rfl
@[simp] theorem State.complete_txh1 (c : ResultCode) (s : State) :
    (s.complete c).txh1 = s.txh1 := rfl
@[simp] theorem State.complete_mask (c : ResultCode) (s : State) :
    (s.complete c).mask = s.mask := rfl
@[simp] theorem State.complete_csum (c : ResultCode) (s : State) :
    (s.complete c).csum = s.csum := rfl
@[simp] theorem State.complete_rx (c : ResultCode) (s : State) :
    (s.complete c).rx = s.rx := rfl
@[simp] theorem State.complete_bufsz (c : ResultCode) (s : State) :
    (s.complete c).bufsz = s.bufsz := rfl
@[simp] theorem State.complete_pbuf (c : ResultCode) (s : State) :
    (s.complete c).pbuf = s.pbuf := rfl
@[simp] theorem State.complete_epoch (c : ResultCode) (s : State) :
    (s.complete c).epoch = s.epoch := rfl
@[simp] theorem State.complete_rst (c : ResultCode) (s : State) :
    (s.complete c).rst = s.rst := rfl
@[simp] theorem State.complete_inbox (c : ResultCode) (s : State) :
    (s.complete c).inbox = s.inbox := rfl
@[simp] theorem State.complete_rdata (c : ResultCode) (s : State) :
    (s.complete c).rdata = s.rdata := rfl

@[simp] theorem State.accept_cmd (w : Word) (s : State) :
    (s.accept w).cmd = w := rfl
@[simp] theorem State.accept_status (w : Word) (s : State) :
    (s.accept w).status = s.status.accepted := rfl
@[simp] theorem State.accept_config (w : Word) (s : State) :
    (s.accept w).config = s.config := rfl
@[simp] theorem State.accept_len (w : Word) (s : State) :
    (s.accept w).len = s.len := rfl
@[simp] theorem State.accept_base (w : Word) (s : State) :
    (s.accept w).base = s.base := rfl
@[simp] theorem State.accept_txh0 (w : Word) (s : State) :
    (s.accept w).txh0 = s.txh0 := rfl
@[simp] theorem State.accept_txh1 (w : Word) (s : State) :
    (s.accept w).txh1 = s.txh1 := rfl
@[simp] theorem State.accept_mask (w : Word) (s : State) :
    (s.accept w).mask = s.mask := rfl
@[simp] theorem State.accept_csum (w : Word) (s : State) :
    (s.accept w).csum = s.csum := rfl
@[simp] theorem State.accept_rx (w : Word) (s : State) :
    (s.accept w).rx = s.rx := rfl
@[simp] theorem State.accept_bufsz (w : Word) (s : State) :
    (s.accept w).bufsz = s.bufsz := rfl
@[simp] theorem State.accept_pbuf (w : Word) (s : State) :
    (s.accept w).pbuf = s.pbuf := rfl
@[simp] theorem State.accept_epoch (w : Word) (s : State) :
    (s.accept w).epoch = s.epoch := rfl
@[simp] theorem State.accept_rst (w : Word) (s : State) :
    (s.accept w).rst = s.rst := rfl
@[simp] theorem State.accept_inbox (w : Word) (s : State) :
    (s.accept w).inbox = s.inbox := rfl
@[simp] theorem State.accept_rdata (w : Word) (s : State) :
    (s.accept w).rdata = s.rdata := rfl

@[simp] theorem State.returnRead_cmd (v : Word) (s : State) :
    (s.returnRead v).cmd = s.cmd := rfl
@[simp] theorem State.returnRead_status (v : Word) (s : State) :
    (s.returnRead v).status = s.status := rfl
@[simp] theorem State.returnRead_config (v : Word) (s : State) :
    (s.returnRead v).config = s.config := rfl
@[simp] theorem State.returnRead_len (v : Word) (s : State) :
    (s.returnRead v).len = s.len := rfl
@[simp] theorem State.returnRead_base (v : Word) (s : State) :
    (s.returnRead v).base = s.base := rfl
@[simp] theorem State.returnRead_txh0 (v : Word) (s : State) :
    (s.returnRead v).txh0 = s.txh0 := rfl
@[simp] theorem State.returnRead_txh1 (v : Word) (s : State) :
    (s.returnRead v).txh1 = s.txh1 := rfl
@[simp] theorem State.returnRead_mask (v : Word) (s : State) :
    (s.returnRead v).mask = s.mask := rfl
@[simp] theorem State.returnRead_csum (v : Word) (s : State) :
    (s.returnRead v).csum = s.csum := rfl
@[simp] theorem State.returnRead_rx (v : Word) (s : State) :
    (s.returnRead v).rx = s.rx := rfl
@[simp] theorem State.returnRead_bufsz (v : Word) (s : State) :
    (s.returnRead v).bufsz = s.bufsz := rfl
@[simp] theorem State.returnRead_pbuf (v : Word) (s : State) :
    (s.returnRead v).pbuf = s.pbuf := rfl
@[simp] theorem State.returnRead_epoch (v : Word) (s : State) :
    (s.returnRead v).epoch = s.epoch := rfl
@[simp] theorem State.returnRead_rst (v : Word) (s : State) :
    (s.returnRead v).rst = s.rst := rfl
@[simp] theorem State.returnRead_inbox (v : Word) (s : State) :
    (s.returnRead v).inbox = s.inbox := rfl
@[simp] theorem State.returnRead_rdata (v : Word) (s : State) :
    (s.returnRead v).rdata = v := rfl

@[simp] theorem State.setCsum_cmd (c : Half) (s : State) :
    (s.setCsum c).cmd = s.cmd := rfl
@[simp] theorem State.setCsum_status (c : Half) (s : State) :
    (s.setCsum c).status = s.status := rfl
@[simp] theorem State.setCsum_config (c : Half) (s : State) :
    (s.setCsum c).config = s.config := rfl
@[simp] theorem State.setCsum_len (c : Half) (s : State) :
    (s.setCsum c).len = s.len := rfl
@[simp] theorem State.setCsum_base (c : Half) (s : State) :
    (s.setCsum c).base = s.base := rfl
@[simp] theorem State.setCsum_txh0 (c : Half) (s : State) :
    (s.setCsum c).txh0 = s.txh0 := rfl
@[simp] theorem State.setCsum_txh1 (c : Half) (s : State) :
    (s.setCsum c).txh1 = s.txh1 := rfl
@[simp] theorem State.setCsum_mask (c : Half) (s : State) :
    (s.setCsum c).mask = s.mask := rfl
@[simp] theorem State.setCsum_csum (c : Half) (s : State) :
    (s.setCsum c).csum = c := rfl
@[simp] theorem State.setCsum_rx (c : Half) (s : State) :
    (s.setCsum c).rx = s.rx := rfl
@[simp] theorem State.setCsum_bufsz (c : Half) (s : State) :
    (s.setCsum c).bufsz = s.bufsz := rfl
@[simp] theorem State.setCsum_pbuf (c : Half) (s : State) :
    (s.setCsum c).pbuf = s.pbuf := rfl
@[simp] theorem State.setCsum_epoch (c : Half) (s : State) :
    (s.setCsum c).epoch = s.epoch := rfl
@[simp] theorem State.setCsum_rst (c : Half) (s : State) :
    (s.setCsum c).rst = s.rst := rfl
@[simp] theorem State.setCsum_inbox (c : Half) (s : State) :
    (s.setCsum c).inbox = s.inbox := rfl
@[simp] theorem State.setCsum_rdata (c : Half) (s : State) :
    (s.setCsum c).rdata = s.rdata := rfl

@[simp] theorem State.setRx_cmd (r : Rx) (s : State) :
    (s.setRx r).cmd = s.cmd := rfl
@[simp] theorem State.setRx_status (r : Rx) (s : State) :
    (s.setRx r).status = s.status := rfl
@[simp] theorem State.setRx_config (r : Rx) (s : State) :
    (s.setRx r).config = s.config := rfl
@[simp] theorem State.setRx_len (r : Rx) (s : State) :
    (s.setRx r).len = s.len := rfl
@[simp] theorem State.setRx_base (r : Rx) (s : State) :
    (s.setRx r).base = s.base := rfl
@[simp] theorem State.setRx_txh0 (r : Rx) (s : State) :
    (s.setRx r).txh0 = s.txh0 := rfl
@[simp] theorem State.setRx_txh1 (r : Rx) (s : State) :
    (s.setRx r).txh1 = s.txh1 := rfl
@[simp] theorem State.setRx_mask (r : Rx) (s : State) :
    (s.setRx r).mask = s.mask := rfl
@[simp] theorem State.setRx_csum (r : Rx) (s : State) :
    (s.setRx r).csum = s.csum := rfl
@[simp] theorem State.setRx_rx (r : Rx) (s : State) :
    (s.setRx r).rx = r := rfl
@[simp] theorem State.setRx_bufsz (r : Rx) (s : State) :
    (s.setRx r).bufsz = s.bufsz := rfl
@[simp] theorem State.setRx_pbuf (r : Rx) (s : State) :
    (s.setRx r).pbuf = s.pbuf := rfl
@[simp] theorem State.setRx_epoch (r : Rx) (s : State) :
    (s.setRx r).epoch = s.epoch := rfl
@[simp] theorem State.setRx_rst (r : Rx) (s : State) :
    (s.setRx r).rst = s.rst := rfl
@[simp] theorem State.setRx_inbox (r : Rx) (s : State) :
    (s.setRx r).inbox = s.inbox := rfl
@[simp] theorem State.setRx_rdata (r : Rx) (s : State) :
    (s.setRx r).rdata = s.rdata := rfl

@[simp] theorem State.popped_cmd (s : State) :
    (s.popped).cmd = s.cmd := rfl
@[simp] theorem State.popped_status (s : State) :
    (s.popped).status = s.status := rfl
@[simp] theorem State.popped_config (s : State) :
    (s.popped).config = s.config := rfl
@[simp] theorem State.popped_len (s : State) :
    (s.popped).len = s.len := rfl
@[simp] theorem State.popped_base (s : State) :
    (s.popped).base = s.base := rfl
@[simp] theorem State.popped_txh0 (s : State) :
    (s.popped).txh0 = s.txh0 := rfl
@[simp] theorem State.popped_txh1 (s : State) :
    (s.popped).txh1 = s.txh1 := rfl
@[simp] theorem State.popped_mask (s : State) :
    (s.popped).mask = s.mask := rfl
@[simp] theorem State.popped_csum (s : State) :
    (s.popped).csum = s.csum := rfl
@[simp] theorem State.popped_rx (s : State) :
    (s.popped).rx = s.rx := rfl
@[simp] theorem State.popped_bufsz (s : State) :
    (s.popped).bufsz = s.bufsz := rfl
@[simp] theorem State.popped_pbuf (s : State) :
    (s.popped).pbuf = s.pbuf := rfl
@[simp] theorem State.popped_epoch (s : State) :
    (s.popped).epoch = s.epoch := rfl
@[simp] theorem State.popped_rst (s : State) :
    (s.popped).rst = s.rst := rfl
@[simp] theorem State.popped_inbox (s : State) :
    (s.popped).inbox = s.inbox.tail := rfl
@[simp] theorem State.popped_rdata (s : State) :
    (s.popped).rdata = s.rdata := rfl

@[simp] theorem State.notPerformed_cmd (d : Dir) (s : State) :
    (s.notPerformed d).cmd = s.cmd := by cases d <;> rfl
@[simp] theorem State.notPerformed_status (d : Dir) (s : State) :
    (s.notPerformed d).status = s.status.busErred := by cases d <;> rfl
@[simp] theorem State.notPerformed_config (d : Dir) (s : State) :
    (s.notPerformed d).config = s.config := by cases d <;> rfl
@[simp] theorem State.notPerformed_len (d : Dir) (s : State) :
    (s.notPerformed d).len = s.len := by cases d <;> rfl
@[simp] theorem State.notPerformed_base (d : Dir) (s : State) :
    (s.notPerformed d).base = s.base := by cases d <;> rfl
@[simp] theorem State.notPerformed_txh0 (d : Dir) (s : State) :
    (s.notPerformed d).txh0 = s.txh0 := by cases d <;> rfl
@[simp] theorem State.notPerformed_txh1 (d : Dir) (s : State) :
    (s.notPerformed d).txh1 = s.txh1 := by cases d <;> rfl
@[simp] theorem State.notPerformed_mask (d : Dir) (s : State) :
    (s.notPerformed d).mask = s.mask := by cases d <;> rfl
@[simp] theorem State.notPerformed_csum (d : Dir) (s : State) :
    (s.notPerformed d).csum = s.csum := by cases d <;> rfl
@[simp] theorem State.notPerformed_rx (d : Dir) (s : State) :
    (s.notPerformed d).rx = s.rx := by cases d <;> rfl
@[simp] theorem State.notPerformed_bufsz (d : Dir) (s : State) :
    (s.notPerformed d).bufsz = s.bufsz := by cases d <;> rfl
@[simp] theorem State.notPerformed_pbuf (d : Dir) (s : State) :
    (s.notPerformed d).pbuf = s.pbuf := by cases d <;> rfl
@[simp] theorem State.notPerformed_epoch (d : Dir) (s : State) :
    (s.notPerformed d).epoch = s.epoch := by cases d <;> rfl
@[simp] theorem State.notPerformed_rst (d : Dir) (s : State) :
    (s.notPerformed d).rst = s.rst := by cases d <;> rfl
@[simp] theorem State.notPerformed_inbox (d : Dir) (s : State) :
    (s.notPerformed d).inbox = s.inbox := by cases d <;> rfl
@[simp] theorem State.notPerformed_rdata (d : Dir) (s : State) :
    (s.notPerformed d).rdata = (match d with | .read => 0 | .write => s.rdata) := by cases d <;> rfl

@[simp] theorem State.writeBytes_cmd (a : Nat) (bs : List Byte) (s : State) :
    (s.writeBytes a bs).cmd = s.cmd := rfl
@[simp] theorem State.writeBytes_status (a : Nat) (bs : List Byte) (s : State) :
    (s.writeBytes a bs).status = s.status := rfl
@[simp] theorem State.writeBytes_config (a : Nat) (bs : List Byte) (s : State) :
    (s.writeBytes a bs).config = s.config := rfl
@[simp] theorem State.writeBytes_len (a : Nat) (bs : List Byte) (s : State) :
    (s.writeBytes a bs).len = s.len := rfl
@[simp] theorem State.writeBytes_base (a : Nat) (bs : List Byte) (s : State) :
    (s.writeBytes a bs).base = s.base := rfl
@[simp] theorem State.writeBytes_txh0 (a : Nat) (bs : List Byte) (s : State) :
    (s.writeBytes a bs).txh0 = s.txh0 := rfl
@[simp] theorem State.writeBytes_txh1 (a : Nat) (bs : List Byte) (s : State) :
    (s.writeBytes a bs).txh1 = s.txh1 := rfl
@[simp] theorem State.writeBytes_mask (a : Nat) (bs : List Byte) (s : State) :
    (s.writeBytes a bs).mask = s.mask := rfl
@[simp] theorem State.writeBytes_csum (a : Nat) (bs : List Byte) (s : State) :
    (s.writeBytes a bs).csum = s.csum := rfl
@[simp] theorem State.writeBytes_rx (a : Nat) (bs : List Byte) (s : State) :
    (s.writeBytes a bs).rx = s.rx := rfl
@[simp] theorem State.writeBytes_bufsz (a : Nat) (bs : List Byte) (s : State) :
    (s.writeBytes a bs).bufsz = s.bufsz := rfl
@[simp] theorem State.writeBytes_pbuf (a : Nat) (bs : List Byte) (s : State) :
    (s.writeBytes a bs).pbuf = Memory.setBytes s.pbuf a bs := rfl
@[simp] theorem State.writeBytes_epoch (a : Nat) (bs : List Byte) (s : State) :
    (s.writeBytes a bs).epoch = s.epoch := rfl
@[simp] theorem State.writeBytes_rst (a : Nat) (bs : List Byte) (s : State) :
    (s.writeBytes a bs).rst = s.rst := rfl
@[simp] theorem State.writeBytes_inbox (a : Nat) (bs : List Byte) (s : State) :
    (s.writeBytes a bs).inbox = s.inbox := rfl
@[simp] theorem State.writeBytes_rdata (a : Nat) (bs : List Byte) (s : State) :
    (s.writeBytes a bs).rdata = s.rdata := rfl

@[simp] theorem State.memWrite_cmd (a n v : Nat) (s : State) :
    (s.memWrite a n v).cmd = s.cmd := rfl
@[simp] theorem State.memWrite_status (a n v : Nat) (s : State) :
    (s.memWrite a n v).status = s.status := rfl
@[simp] theorem State.memWrite_config (a n v : Nat) (s : State) :
    (s.memWrite a n v).config = s.config := rfl
@[simp] theorem State.memWrite_len (a n v : Nat) (s : State) :
    (s.memWrite a n v).len = s.len := rfl
@[simp] theorem State.memWrite_base (a n v : Nat) (s : State) :
    (s.memWrite a n v).base = s.base := rfl
@[simp] theorem State.memWrite_txh0 (a n v : Nat) (s : State) :
    (s.memWrite a n v).txh0 = s.txh0 := rfl
@[simp] theorem State.memWrite_txh1 (a n v : Nat) (s : State) :
    (s.memWrite a n v).txh1 = s.txh1 := rfl
@[simp] theorem State.memWrite_mask (a n v : Nat) (s : State) :
    (s.memWrite a n v).mask = s.mask := rfl
@[simp] theorem State.memWrite_csum (a n v : Nat) (s : State) :
    (s.memWrite a n v).csum = s.csum := rfl
@[simp] theorem State.memWrite_rx (a n v : Nat) (s : State) :
    (s.memWrite a n v).rx = s.rx := rfl
@[simp] theorem State.memWrite_bufsz (a n v : Nat) (s : State) :
    (s.memWrite a n v).bufsz = s.bufsz := rfl
@[simp] theorem State.memWrite_pbuf (a n v : Nat) (s : State) :
    (s.memWrite a n v).pbuf = Memory.setBytes s.pbuf a (beBytes n v) := rfl
@[simp] theorem State.memWrite_epoch (a n v : Nat) (s : State) :
    (s.memWrite a n v).epoch = s.epoch := rfl
@[simp] theorem State.memWrite_rst (a n v : Nat) (s : State) :
    (s.memWrite a n v).rst = s.rst := rfl
@[simp] theorem State.memWrite_inbox (a n v : Nat) (s : State) :
    (s.memWrite a n v).inbox = s.inbox := rfl
@[simp] theorem State.memWrite_rdata (a n v : Nat) (s : State) :
    (s.memWrite a n v).rdata = s.rdata := rfl

@[simp] theorem State.released_cmd (s : State) :
    (s.released).cmd = 0 := rfl
@[simp] theorem State.released_status (s : State) :
    (s.released).status = Status.reset := rfl
@[simp] theorem State.released_config (s : State) :
    (s.released).config = ⟨false⟩ := rfl
@[simp] theorem State.released_len (s : State) :
    (s.released).len = 0 := rfl
@[simp] theorem State.released_base (s : State) :
    (s.released).base = 0 := rfl
@[simp] theorem State.released_txh0 (s : State) :
    (s.released).txh0 = ⟨0, 0⟩ := rfl
@[simp] theorem State.released_txh1 (s : State) :
    (s.released).txh1 = ⟨0, 0⟩ := rfl
@[simp] theorem State.released_mask (s : State) :
    (s.released).mask = 0 := rfl
@[simp] theorem State.released_csum (s : State) :
    (s.released).csum = 0 := rfl
@[simp] theorem State.released_rx (s : State) :
    (s.released).rx = Rx.reset := rfl
@[simp] theorem State.released_bufsz (s : State) :
    (s.released).bufsz = s.bufsz := rfl
@[simp] theorem State.released_pbuf (s : State) :
    (s.released).pbuf = [] := rfl
@[simp] theorem State.released_epoch (s : State) :
    (s.released).epoch = s.epoch + 1 := rfl
@[simp] theorem State.released_rst (s : State) :
    (s.released).rst = false := rfl
@[simp] theorem State.released_inbox (s : State) :
    (s.released).inbox = s.inbox := rfl
@[simp] theorem State.released_rdata (s : State) :
    (s.released).rdata = s.rdata := rfl

@[simp] theorem State.withFetchWord_cmd (s : State) (nbits w : Nat) :
    (s.withFetchWord nbits w).cmd = tableWord nbits w := rfl
@[simp] theorem State.withFetchWord_status (s : State) (nbits w : Nat) :
    (s.withFetchWord nbits w).status = s.status.accepted := rfl
@[simp] theorem State.withFetchWord_config (s : State) (nbits w : Nat) :
    (s.withFetchWord nbits w).config = s.config := rfl
@[simp] theorem State.withFetchWord_len (s : State) (nbits w : Nat) :
    (s.withFetchWord nbits w).len = s.len := rfl
@[simp] theorem State.withFetchWord_base (s : State) (nbits w : Nat) :
    (s.withFetchWord nbits w).base = s.base := rfl
@[simp] theorem State.withFetchWord_txh0 (s : State) (nbits w : Nat) :
    (s.withFetchWord nbits w).txh0 = s.txh0 := rfl
@[simp] theorem State.withFetchWord_txh1 (s : State) (nbits w : Nat) :
    (s.withFetchWord nbits w).txh1 = s.txh1 := rfl
@[simp] theorem State.withFetchWord_mask (s : State) (nbits w : Nat) :
    (s.withFetchWord nbits w).mask = s.mask := rfl
@[simp] theorem State.withFetchWord_csum (s : State) (nbits w : Nat) :
    (s.withFetchWord nbits w).csum = s.csum := rfl
@[simp] theorem State.withFetchWord_rx (s : State) (nbits w : Nat) :
    (s.withFetchWord nbits w).rx = s.rx := rfl
@[simp] theorem State.withFetchWord_bufsz (s : State) (nbits w : Nat) :
    (s.withFetchWord nbits w).bufsz = s.bufsz := rfl
@[simp] theorem State.withFetchWord_pbuf (s : State) (nbits w : Nat) :
    (s.withFetchWord nbits w).pbuf = s.pbuf := rfl
@[simp] theorem State.withFetchWord_epoch (s : State) (nbits w : Nat) :
    (s.withFetchWord nbits w).epoch = s.epoch := rfl
@[simp] theorem State.withFetchWord_rst (s : State) (nbits w : Nat) :
    (s.withFetchWord nbits w).rst = false := rfl
@[simp] theorem State.withFetchWord_inbox (s : State) (nbits w : Nat) :
    (s.withFetchWord nbits w).inbox = [] := rfl
@[simp] theorem State.withFetchWord_rdata (s : State) (nbits w : Nat) :
    (s.withFetchWord nbits w).rdata = s.rdata := rfl

@[simp] theorem State.complete_opType (c : ResultCode) (s : State) :
    (s.complete c).opType = s.opType := rfl
@[simp] theorem State.complete_opCode (c : ResultCode) (s : State) :
    (s.complete c).opCode = s.opCode := rfl
@[simp] theorem State.complete_opId (c : ResultCode) (s : State) :
    (s.complete c).opId = s.opId := rfl
@[simp] theorem State.complete_opSeq (c : ResultCode) (s : State) :
    (s.complete c).opSeq = s.opSeq := rfl
@[simp] theorem State.complete_opMask (c : ResultCode) (s : State) :
    (s.complete c).opMask = s.opMask := rfl
@[simp] theorem State.complete_opBase (c : ResultCode) (s : State) :
    (s.complete c).opBase = s.opBase := rfl
@[simp] theorem State.complete_opLen (c : ResultCode) (s : State) :
    (s.complete c).opLen = s.opLen := rfl
@[simp] theorem State.complete_bufSize (c : ResultCode) (s : State) :
    (s.complete c).bufSize = s.bufSize := rfl

@[simp] theorem State.accept_opType (w : Word) (s : State) :
    (s.accept w).opType = s.opType := rfl
@[simp] theorem State.accept_opCode (w : Word) (s : State) :
    (s.accept w).opCode = s.opCode := rfl
@[simp] theorem State.accept_opId (w : Word) (s : State) :
    (s.accept w).opId = s.opId := rfl
@[simp] theorem State.accept_opSeq (w : Word) (s : State) :
    (s.accept w).opSeq = s.opSeq := rfl
@[simp] theorem State.accept_opMask (w : Word) (s : State) :
    (s.accept w).opMask = s.opMask := rfl
@[simp] theorem State.accept_opBase (w : Word) (s : State) :
    (s.accept w).opBase = s.opBase := rfl
@[simp] theorem State.accept_opLen (w : Word) (s : State) :
    (s.accept w).opLen = s.opLen := rfl
@[simp] theorem State.accept_bufSize (w : Word) (s : State) :
    (s.accept w).bufSize = s.bufSize := rfl

@[simp] theorem State.returnRead_opType (v : Word) (s : State) :
    (s.returnRead v).opType = s.opType := rfl
@[simp] theorem State.returnRead_opCode (v : Word) (s : State) :
    (s.returnRead v).opCode = s.opCode := rfl
@[simp] theorem State.returnRead_opId (v : Word) (s : State) :
    (s.returnRead v).opId = s.opId := rfl
@[simp] theorem State.returnRead_opSeq (v : Word) (s : State) :
    (s.returnRead v).opSeq = s.opSeq := rfl
@[simp] theorem State.returnRead_opMask (v : Word) (s : State) :
    (s.returnRead v).opMask = s.opMask := rfl
@[simp] theorem State.returnRead_opBase (v : Word) (s : State) :
    (s.returnRead v).opBase = s.opBase := rfl
@[simp] theorem State.returnRead_opLen (v : Word) (s : State) :
    (s.returnRead v).opLen = s.opLen := rfl
@[simp] theorem State.returnRead_bufSize (v : Word) (s : State) :
    (s.returnRead v).bufSize = s.bufSize := rfl

@[simp] theorem State.setCsum_opType (c : Half) (s : State) :
    (s.setCsum c).opType = s.opType := rfl
@[simp] theorem State.setCsum_opCode (c : Half) (s : State) :
    (s.setCsum c).opCode = s.opCode := rfl
@[simp] theorem State.setCsum_opId (c : Half) (s : State) :
    (s.setCsum c).opId = s.opId := rfl
@[simp] theorem State.setCsum_opSeq (c : Half) (s : State) :
    (s.setCsum c).opSeq = s.opSeq := rfl
@[simp] theorem State.setCsum_opMask (c : Half) (s : State) :
    (s.setCsum c).opMask = s.opMask := rfl
@[simp] theorem State.setCsum_opBase (c : Half) (s : State) :
    (s.setCsum c).opBase = s.opBase := rfl
@[simp] theorem State.setCsum_opLen (c : Half) (s : State) :
    (s.setCsum c).opLen = s.opLen := rfl
@[simp] theorem State.setCsum_bufSize (c : Half) (s : State) :
    (s.setCsum c).bufSize = s.bufSize := rfl

@[simp] theorem State.setRx_opType (r : Rx) (s : State) :
    (s.setRx r).opType = s.opType := rfl
@[simp] theorem State.setRx_opCode (r : Rx) (s : State) :
    (s.setRx r).opCode = s.opCode := rfl
@[simp] theorem State.setRx_opId (r : Rx) (s : State) :
    (s.setRx r).opId = s.opId := rfl
@[simp] theorem State.setRx_opSeq (r : Rx) (s : State) :
    (s.setRx r).opSeq = s.opSeq := rfl
@[simp] theorem State.setRx_opMask (r : Rx) (s : State) :
    (s.setRx r).opMask = s.opMask := rfl
@[simp] theorem State.setRx_opBase (r : Rx) (s : State) :
    (s.setRx r).opBase = s.opBase := rfl
@[simp] theorem State.setRx_opLen (r : Rx) (s : State) :
    (s.setRx r).opLen = s.opLen := rfl
@[simp] theorem State.setRx_bufSize (r : Rx) (s : State) :
    (s.setRx r).bufSize = s.bufSize := rfl

@[simp] theorem State.popped_opType (s : State) :
    (s.popped).opType = s.opType := rfl
@[simp] theorem State.popped_opCode (s : State) :
    (s.popped).opCode = s.opCode := rfl
@[simp] theorem State.popped_opId (s : State) :
    (s.popped).opId = s.opId := rfl
@[simp] theorem State.popped_opSeq (s : State) :
    (s.popped).opSeq = s.opSeq := rfl
@[simp] theorem State.popped_opMask (s : State) :
    (s.popped).opMask = s.opMask := rfl
@[simp] theorem State.popped_opBase (s : State) :
    (s.popped).opBase = s.opBase := rfl
@[simp] theorem State.popped_opLen (s : State) :
    (s.popped).opLen = s.opLen := rfl
@[simp] theorem State.popped_bufSize (s : State) :
    (s.popped).bufSize = s.bufSize := rfl

@[simp] theorem State.notPerformed_opType (d : Dir) (s : State) :
    (s.notPerformed d).opType = s.opType := by cases d <;> rfl
@[simp] theorem State.notPerformed_opCode (d : Dir) (s : State) :
    (s.notPerformed d).opCode = s.opCode := by cases d <;> rfl
@[simp] theorem State.notPerformed_opId (d : Dir) (s : State) :
    (s.notPerformed d).opId = s.opId := by cases d <;> rfl
@[simp] theorem State.notPerformed_opSeq (d : Dir) (s : State) :
    (s.notPerformed d).opSeq = s.opSeq := by cases d <;> rfl
@[simp] theorem State.notPerformed_opMask (d : Dir) (s : State) :
    (s.notPerformed d).opMask = s.opMask := by cases d <;> rfl
@[simp] theorem State.notPerformed_opBase (d : Dir) (s : State) :
    (s.notPerformed d).opBase = s.opBase := by cases d <;> rfl
@[simp] theorem State.notPerformed_opLen (d : Dir) (s : State) :
    (s.notPerformed d).opLen = s.opLen := by cases d <;> rfl
@[simp] theorem State.notPerformed_bufSize (d : Dir) (s : State) :
    (s.notPerformed d).bufSize = s.bufSize := by cases d <;> rfl

@[simp] theorem State.writeBytes_opType (a : Nat) (bs : List Byte) (s : State) :
    (s.writeBytes a bs).opType = s.opType := rfl
@[simp] theorem State.writeBytes_opCode (a : Nat) (bs : List Byte) (s : State) :
    (s.writeBytes a bs).opCode = s.opCode := rfl
@[simp] theorem State.writeBytes_opId (a : Nat) (bs : List Byte) (s : State) :
    (s.writeBytes a bs).opId = s.opId := rfl
@[simp] theorem State.writeBytes_opSeq (a : Nat) (bs : List Byte) (s : State) :
    (s.writeBytes a bs).opSeq = s.opSeq := rfl
@[simp] theorem State.writeBytes_opMask (a : Nat) (bs : List Byte) (s : State) :
    (s.writeBytes a bs).opMask = s.opMask := rfl
@[simp] theorem State.writeBytes_opBase (a : Nat) (bs : List Byte) (s : State) :
    (s.writeBytes a bs).opBase = s.opBase := rfl
@[simp] theorem State.writeBytes_opLen (a : Nat) (bs : List Byte) (s : State) :
    (s.writeBytes a bs).opLen = s.opLen := rfl
@[simp] theorem State.writeBytes_bufSize (a : Nat) (bs : List Byte) (s : State) :
    (s.writeBytes a bs).bufSize = s.bufSize := rfl

@[simp] theorem State.memWrite_opType (a n v : Nat) (s : State) :
    (s.memWrite a n v).opType = s.opType := rfl
@[simp] theorem State.memWrite_opCode (a n v : Nat) (s : State) :
    (s.memWrite a n v).opCode = s.opCode := rfl
@[simp] theorem State.memWrite_opId (a n v : Nat) (s : State) :
    (s.memWrite a n v).opId = s.opId := rfl
@[simp] theorem State.memWrite_opSeq (a n v : Nat) (s : State) :
    (s.memWrite a n v).opSeq = s.opSeq := rfl
@[simp] theorem State.memWrite_opMask (a n v : Nat) (s : State) :
    (s.memWrite a n v).opMask = s.opMask := rfl
@[simp] theorem State.memWrite_opBase (a n v : Nat) (s : State) :
    (s.memWrite a n v).opBase = s.opBase := rfl
@[simp] theorem State.memWrite_opLen (a n v : Nat) (s : State) :
    (s.memWrite a n v).opLen = s.opLen := rfl
@[simp] theorem State.memWrite_bufSize (a n v : Nat) (s : State) :
    (s.memWrite a n v).bufSize = s.bufSize := rfl

@[simp] theorem State.complete_pbufByte (c : ResultCode) (s : State) (i : Nat) :
    (s.complete c).pbufByte i = s.pbufByte i := rfl
@[simp] theorem State.complete_pbufBytes (c : ResultCode) (s : State) (a m : Nat) :
    (s.complete c).pbufBytes a m = s.pbufBytes a m := rfl
@[simp] theorem State.complete_memRead (c : ResultCode) (s : State) (a m : Nat) :
    (s.complete c).memRead a m = s.memRead a m := rfl
@[simp] theorem State.accept_pbufByte (w : Word) (s : State) (i : Nat) :
    (s.accept w).pbufByte i = s.pbufByte i := rfl
@[simp] theorem State.accept_pbufBytes (w : Word) (s : State) (a m : Nat) :
    (s.accept w).pbufBytes a m = s.pbufBytes a m := rfl
@[simp] theorem State.accept_memRead (w : Word) (s : State) (a m : Nat) :
    (s.accept w).memRead a m = s.memRead a m := rfl
@[simp] theorem State.returnRead_pbufByte (v : Word) (s : State) (i : Nat) :
    (s.returnRead v).pbufByte i = s.pbufByte i := rfl
@[simp] theorem State.returnRead_pbufBytes (v : Word) (s : State) (a m : Nat) :
    (s.returnRead v).pbufBytes a m = s.pbufBytes a m := rfl
@[simp] theorem State.returnRead_memRead (v : Word) (s : State) (a m : Nat) :
    (s.returnRead v).memRead a m = s.memRead a m := rfl
@[simp] theorem State.setCsum_pbufByte (c : Half) (s : State) (i : Nat) :
    (s.setCsum c).pbufByte i = s.pbufByte i := rfl
@[simp] theorem State.setCsum_pbufBytes (c : Half) (s : State) (a m : Nat) :
    (s.setCsum c).pbufBytes a m = s.pbufBytes a m := rfl
@[simp] theorem State.setCsum_memRead (c : Half) (s : State) (a m : Nat) :
    (s.setCsum c).memRead a m = s.memRead a m := rfl
@[simp] theorem State.setRx_pbufByte (r : Rx) (s : State) (i : Nat) :
    (s.setRx r).pbufByte i = s.pbufByte i := rfl
@[simp] theorem State.setRx_pbufBytes (r : Rx) (s : State) (a m : Nat) :
    (s.setRx r).pbufBytes a m = s.pbufBytes a m := rfl
@[simp] theorem State.setRx_memRead (r : Rx) (s : State) (a m : Nat) :
    (s.setRx r).memRead a m = s.memRead a m := rfl
@[simp] theorem State.popped_pbufByte (s : State) (i : Nat) :
    (s.popped).pbufByte i = s.pbufByte i := rfl
@[simp] theorem State.popped_pbufBytes (s : State) (a m : Nat) :
    (s.popped).pbufBytes a m = s.pbufBytes a m := rfl
@[simp] theorem State.popped_memRead (s : State) (a m : Nat) :
    (s.popped).memRead a m = s.memRead a m := rfl
@[simp] theorem State.notPerformed_pbufByte (d : Dir) (s : State) (i : Nat) :
    (s.notPerformed d).pbufByte i = s.pbufByte i := by cases d <;> rfl
@[simp] theorem State.notPerformed_pbufBytes (d : Dir) (s : State) (a m : Nat) :
    (s.notPerformed d).pbufBytes a m = s.pbufBytes a m := by cases d <;> rfl
@[simp] theorem State.notPerformed_memRead (d : Dir) (s : State) (a m : Nat) :
    (s.notPerformed d).memRead a m = s.memRead a m := by cases d <;> rfl

end Sys2Proof.Machine
end

