-- ==== Sys2Proof/Laws/Ops.lean ====
section
/-! SUPPORT. What the shared operations over PBUF do, said once: callers cite these and do not unfold the operations. -/

namespace Sys2Proof.Machine

@[simp] theorem State.pbufBytes_length (s : State) (a n : Nat) : (s.pbufBytes a n).length = n := by
  simp [State.pbufBytes]

@[simp] theorem State.pbufBytes_getElem (s : State) (a n k : Nat) (h : k < (s.pbufBytes a n).length) :
    (s.pbufBytes a n)[k] = s.pbufByte (a + k) := by
  simp [State.pbufBytes]

/-- A range depends on its own bytes alone. -/
theorem State.pbufBytes_congr {s s' : State} {a n : Nat}
    (h : ∀ i, a ≤ i → i < a + n → s.pbufByte i = s'.pbufByte i) : s.pbufBytes a n = s'.pbufBytes a n := by
  apply List.ext_getElem
  · simp
  · intro k h1 h2
    simp only [State.pbufBytes_length] at h1
    simp [h (a + k) (by omega) (by omega)]

/-- A range in two parts. -/
theorem State.pbufBytes_add (s : State) (a m n : Nat) :
    s.pbufBytes a (m + n) = s.pbufBytes a m ++ s.pbufBytes (a + m) n := by
  simp [State.pbufBytes, List.range_add, Nat.add_assoc]

/-- MemRead depends on its own bytes alone. -/
theorem State.memRead_congr {s s' : State} {a n : Nat}
    (h : ∀ i, a ≤ i → i < a + n → s.pbufByte i = s'.pbufByte i) : s.memRead a n = s'.memRead a n := by
  simp [State.memRead, State.pbufBytes_congr h]

@[simp] theorem State.memRead_one (s : State) (a : Nat) : s.memRead a 1 = (s.pbufByte a).toNat := by
  simp [State.memRead, State.pbufBytes, beValue, List.range_succ]

/-- MemRead(a, 2): the byte at the lower index is the more significant one (20_memory.md R62). -/
theorem State.memRead_two (s : State) (a : Nat) :
    s.memRead a 2 = (s.pbufByte a).toNat * 256 + (s.pbufByte (a + 1)).toNat := by
  simp [State.memRead, State.pbufBytes, beValue, List.range_succ]

/-- MemRead(a, 4) (20_memory.md R62). -/
theorem State.memRead_four (s : State) (a : Nat) :
    s.memRead a 4 = (((s.pbufByte a).toNat * 256 + (s.pbufByte (a + 1)).toNat) * 256 +
      (s.pbufByte (a + 2)).toNat) * 256 + (s.pbufByte (a + 3)).toNat := by
  simp [State.memRead, State.pbufBytes, beValue, List.range_succ]

/-- MemRead of two bytes fits 16 bits. -/
theorem State.memRead_two_lt (s : State) (a : Nat) : s.memRead a 2 < 2 ^ 16 := by
  rw [State.memRead_two]; have := (s.pbufByte a).isLt; have := (s.pbufByte (a + 1)).isLt; omega

/-- MemRead of four bytes fits 32 bits. -/
theorem State.memRead_four_lt (s : State) (a : Nat) : s.memRead a 4 < 2 ^ 32 := by
  rw [State.memRead_four]
  have := (s.pbufByte a).isLt; have := (s.pbufByte (a + 1)).isLt
  have := (s.pbufByte (a + 2)).isLt; have := (s.pbufByte (a + 3)).isLt
  omega

@[simp] theorem beBytes_length (n v : Nat) : (beBytes n v).length = n := by simp [beBytes]

@[simp] theorem beBytes_getElem (n v k : Nat) (h : k < (beBytes n v).length) :
    (beBytes n v)[k] = BitVec.ofNat 8 (v >>> (8 * (n - 1 - k))) := by simp [beBytes]

/-- A byte read after a sequence has been written: the sequence's own byte inside it, the old byte outside. -/
theorem State.writeBytes_pbufByte (a : Nat) (bs : List Byte) (s : State) (i : Nat) :
    (s.writeBytes a bs).pbufByte i =
      if h : a ≤ i ∧ i < a + bs.length then bs[i - a]'(by omega) else s.pbufByte i := by
  simp only [State.pbufByte, State.writeBytes_pbuf, Memory.get?_setBytes, State.writeBytes_epoch]
  by_cases h : a ≤ i ∧ i < a + bs.length
  · rw [if_pos h, dif_pos h, List.getElem?_eq_getElem (by omega)]; rfl
  · rw [if_neg h, dif_neg h]

/-- Bytes outside the written sequence are left alone. -/
theorem State.writeBytes_pbufByte_outside {a : Nat} {bs : List Byte} {s : State} {i : Nat}
    (h : i < a ∨ a + bs.length ≤ i) : (s.writeBytes a bs).pbufByte i = s.pbufByte i := by
  rw [State.writeBytes_pbufByte, dif_neg (by omega)]

/-- The written range reads back. -/
theorem State.writeBytes_pbufBytes (a : Nat) (bs : List Byte) (s : State) :
    (s.writeBytes a bs).pbufBytes a bs.length = bs := by
  apply List.ext_getElem
  · simp
  · intro k h1 h2
    simp [State.writeBytes_pbufByte, h2]

/-- PBUF reads depend on the bytes and the epoch alone. -/
theorem State.pbufByte_congr {s s' : State} (hp : s.pbuf = s'.pbuf) (he : s.epoch = s'.epoch) (i : Nat) :
    s.pbufByte i = s'.pbufByte i := by simp [State.pbufByte, hp, he]

end Sys2Proof.Machine
end

