-- ==== Sys2Proof/Laws/Exec.lean ====
section
/-! SUPPORT. What each meaning can do, said once: if it answers a next state, then one of these cases holds. -/

namespace Sys2Proof.Machine

/-- NOP has one outcome. -/
theorem execNop_cases {s t : State} (h : execNop s = .next t) : t = s.complete .ok := by
  cases h; rfl

/-- ILLEGAL has one outcome. -/
theorem execIllegal_cases {s t : State} (h : execIllegal s = .next t) : t = s.complete .illegalOp := by
  cases h; rfl

/-- ENCODE fails its check, or writes the header and CSUM. -/
theorem execEncode_cases {s t : State} (h : execEncode s = .next t) :
    (s.bufSize < s.opBase + 8 + s.opLen ∧ t = s.complete .badLength) ∨
    (s.opBase + 8 + s.opLen ≤ s.bufSize ∧ ∃ c, c = s.segmentChecksum s.encodePayload ∧
      t = ((s.writeBytes s.opBase (s.icmpHeader c)).setCsum c).complete .ok) := by
  unfold execEncode at h
  split at h
  · exact .inl ⟨by assumption, by cases h; rfl⟩
  · exact .inr ⟨by omega, _, rfl, by cases h; rfl⟩

/-- ENCODE when its segment fits. -/
theorem execEncode_of_fits {s : State} (h : s.opBase + 8 + s.opLen ≤ s.bufSize) {c : Half}
    (hc : c = s.segmentChecksum s.encodePayload) :
    execEncode s = .next (((s.writeBytes s.opBase (s.icmpHeader c)).setCsum c).complete .ok) := by
  subst hc
  exact if_neg (by omega)

/-- PACK fails its check, or writes the payload. -/
theorem execPack_cases {s t : State} (h : execPack s = .next t) :
    (s.bufSize < s.opBase + 12 ∧ t = s.complete .badLength) ∨
    (s.opBase + 12 ≤ s.bufSize ∧ t = (s.memWrite (s.opBase + 8) 4 s.opMask.toNat).complete .ok) := by
  unfold execPack at h
  split at h
  · exact .inl ⟨by assumption, by cases h; rfl⟩
  · exact .inr ⟨by omega, by cases h; rfl⟩

/-- PACK when its segment fits. -/
theorem execPack_of_fits {s : State} (h : s.opBase + 12 ≤ s.bufSize) :
    execPack s = .next ((s.memWrite (s.opBase + 8) 4 s.opMask.toNat).complete .ok) :=
  if_neg (by omega)

/-- ENCODE_AM fails its check, or writes the message and CSUM. -/
theorem execEncodeAm_cases {s t : State} (h : execEncodeAm s = .next t) :
    (s.bufSize < s.opBase + 12 ∧ t = s.complete .badLength) ∨
    (s.opBase + 12 ≤ s.bufSize ∧ ∃ c, c = s.segmentChecksum (maskPayload s.opMask) ∧
      t = ((s.writeBytes s.opBase (s.icmpHeader c ++ maskPayload s.opMask)).setCsum c).complete .ok) := by
  unfold execEncodeAm at h
  split at h
  · exact .inl ⟨by assumption, by cases h; rfl⟩
  · exact .inr ⟨by omega, _, rfl, by cases h; rfl⟩

/-- ENCODE_AM when its segment fits. -/
theorem execEncodeAm_of_fits {s : State} (h : s.opBase + 12 ≤ s.bufSize) {c : Half}
    (hc : c = s.segmentChecksum (maskPayload s.opMask)) :
    execEncodeAm s =
      .next (((s.writeBytes s.opBase (s.icmpHeader c ++ maskPayload s.opMask)).setCsum c).complete .ok) := by
  subst hc
  exact if_neg (by omega)

/-- MemWrite of a word writes the address-mask payload (30_encoding.md R96). -/
theorem beBytes_four (v : Word) : beBytes 4 v.toNat = maskPayload v := by
  apply List.ext_getElem
  · rfl
  · intro k h1 h2
    simp only [beBytes_length] at h1
    rw [beBytes_getElem]
    have : k = 0 ∨ k = 1 ∨ k = 2 ∨ k = 3 := by omega
    rcases this with rfl | rfl | rfl | rfl <;>
      (apply BitVec.eq_of_toNat_eq; simp [maskPayload, BitVec.extractLsb'_toNat])

/-- CHECKSUM fails its check, or writes CSUM. -/
theorem execChecksum_cases {s t : State} (h : execChecksum s = .next t) :
    (s.bufSize < s.opBase + s.opLen ∧ t = s.complete .badLength) ∨
    (s.opBase + s.opLen ≤ s.bufSize ∧
      t = (s.setCsum (inetChecksum (s.pbufBytes s.opBase s.opLen))).complete .ok) := by
  unfold execChecksum at h
  split at h
  · exact .inl ⟨by assumption, by cases h; rfl⟩
  · exact .inr ⟨by omega, by cases h; rfl⟩

/-- CHECKSUM when its range fits. -/
theorem execChecksum_of_fits {s : State} (h : s.opBase + s.opLen ≤ s.bufSize) :
    execChecksum s = .next ((s.setCsum (inetChecksum (s.pbufBytes s.opBase s.opLen))).complete .ok) :=
  if_neg (by omega)

/-- DECODE completes with the code of its checks, and writes the ten registers exactly when that code is OK. -/
theorem execDecode_eq (s : State) :
    execDecode s = .next ((s.setRx (if s.decodeResult = .ok then s.decodedRx else s.rx)).complete s.decodeResult) := by
  unfold execDecode
  cases s.decodeResult <;> rfl

theorem execDecode_cases {s t : State} (h : execDecode s = .next t) :
    (s.decodeResult ≠ .ok ∧ t = s.complete s.decodeResult) ∨
    (s.decodeResult = .ok ∧ t = (s.setRx s.decodedRx).complete .ok) := by
  rw [execDecode_eq] at h
  cases h
  by_cases hc : s.decodeResult = .ok
  · exact .inr ⟨hc, by simp [hc]⟩
  · exact .inl ⟨hc, by simp [hc, State.setRx]⟩

/-- DECODE returns OK exactly when every check of 42_decode.md R161 passes. -/
theorem State.decodeResult_eq_ok_iff (s : State) :
    s.decodeResult = .ok ↔ s.opBase + s.opLen ≤ s.bufSize ∧ 20 ≤ s.opLen ∧ s.datagramHlen + 8 ≤ s.opLen ∧
      s.calcChecksum = s.storedChecksum := by
  simp only [State.decodeResult]
  split
  · simp; omega
  · split
    · simp; omega
    · split
      · simp; omega
      · split
        · simp_all
        · simp_all

/-- H is at most 60 (10_state.md R34). -/
theorem State.datagramHlen_le (s : State) : s.datagramHlen ≤ 60 := by
  have h : (s.pbufByte s.opBase).toNat &&& 15 ≤ 15 := Nat.and_le_right
  simp only [State.datagramHlen]
  omega

/-- No command stops (60_exceptions.md R207). -/
theorem exec_answers_next (i : Instr) (s : State) : ∃ t, exec i s = .next t := by
  cases i <;> simp only [exec]
  · exact ⟨_, rfl⟩
  · unfold execEncode; split <;> exact ⟨_, rfl⟩
  · exact ⟨_, execDecode_eq s⟩
  · unfold execChecksum; split <;> exact ⟨_, rfl⟩
  · unfold execPack; split <;> exact ⟨_, rfl⟩
  · unfold execEncodeAm; split <;> exact ⟨_, rfl⟩

/-- What the engine runs: a command of the table, or ILLEGAL (40_dispatch.md R114). -/
theorem engineCommand_cases (s : State) :
    (∃ i, decodeWord s.cmd = .ok i ∧ engineCommand s = exec i s) ∨
    ((∃ e, decodeWord s.cmd = .error e) ∧ engineCommand s = .next (s.complete .illegalOp)) := by
  unfold engineCommand
  cases h : decodeWord s.cmd with
  | ok i => exact .inl ⟨i, rfl, rfl⟩
  | error e => exact .inr ⟨⟨e, rfl⟩, rfl⟩

end Sys2Proof.Machine
end

