-- ==== Sys2Proof/Laws/Step.lean ====
section
/-! SUPPORT. What one step can do, said once: if it answers a next state, then one of the cases of `step_cases` holds. -/

namespace Sys2Proof.Machine

/-- The engine's turn completes the running command, or changes nothing. -/
theorem engineTurn_cases {s t : State} (h : engineTurn s = .next t) :
    (s.status.busy = true ∧ s.rst = false ∧ engineCommand s = .next t) ∨
    ((s.status.busy = false ∨ s.rst = true) ∧ t = s) := by
  unfold engineTurn State.completionEnabled at h
  split at h
  · rename_i hc
    simp only [Bool.and_eq_true, Bool.not_eq_true'] at hc
    exact .inl ⟨hc.1, hc.2, h⟩
  · rename_i hc
    refine .inr ⟨?_, by cases h; rfl⟩
    cases hb : s.status.busy <;> cases hr : s.rst <;> simp_all

/-- A step that answers a next state completes the running command, does nothing, performs a transaction, or drives the
reset pin. `u` is the state without its next event. -/
theorem step_cases {s t : State} (h : step s = .next t) :
    ∃ u, u = s.popped ∧
      ((s.nextTxn = none ∧ u.status.busy = true ∧ u.rst = false ∧ engineCommand u = .next t) ∨
       (s.nextTxn = none ∧ t = u) ∨
       (∃ x, s.nextTxn = some x ∧ u.rst = false ∧ t = u.transact x) ∨
       (∃ l rest, s.inbox = .rst l :: rest ∧ t = u.drivePin l)) := by
  refine ⟨_, rfl, ?_⟩
  unfold step at h
  cases hi : s.inbox with
  | nil =>
    have hs : s.popped = s := by cases s; simp_all [State.popped]
    rw [hi] at h
    rw [hs]
    obtain ⟨hb, hr, hc⟩ | ⟨-, rfl⟩ := engineTurn_cases h
    · exact .inl ⟨by simp [State.nextTxn, hi], hb, hr, hc⟩
    · exact .inr (.inl ⟨by simp [State.nextTxn, hi], rfl⟩)
  | cons e rest =>
    rw [hi] at h
    cases e with
    | txn x =>
      simp only [handleEvent, hostTransaction] at h
      split at h
      · cases h
      · rename_i hr
        exact .inr (.inr (.inl ⟨x, by simp [State.nextTxn, hi, Event.reaches], by simpa using hr, by cases h; rfl⟩))
    | access addr d sz w =>
      simp only [handleEvent] at h
      split at h
      · rename_i x hx
        simp only [hostTransaction] at h
        split at h
        · cases h
        · rename_i hr
          exact .inr (.inr (.inl ⟨x, by simp [State.nextTxn, hi, Event.reaches, hx], by simpa using hr, by cases h; rfl⟩))
      · rename_i hx
        exact .inr (.inl ⟨by simp [State.nextTxn, hi, Event.reaches, hx], by cases h; rfl⟩)
    | engine =>
      obtain ⟨hb, hr, hc⟩ | ⟨-, rfl⟩ := engineTurn_cases h
      · exact .inl ⟨by simp [State.nextTxn, hi, Event.reaches], hb, hr, hc⟩
      · exact .inr (.inl ⟨by simp [State.nextTxn, hi, Event.reaches], rfl⟩)
    | rst l => exact .inr (.inr (.inr ⟨l, rest, rfl, by cases h; rfl⟩))

/-- A run of n + 1 steps is one step and a run of n steps. -/
theorem run_succ {n : Nat} {s u : State} (h : step s = .next u) :
    Host.Core.run core (n + 1) s = Host.Core.run core n u := by
  have hc : core.step s = .next u := h
  simp only [Host.Core.run]
  rw [hc]

/-- The pin either releases the reset or only takes its level. -/
theorem State.drivePin_cases (l : Bool) (s : State) :
    (s.rst = true ∧ l = false ∧ s.drivePin l = s.released) ∨
    (¬(s.rst = true ∧ l = false) ∧ s.drivePin l = { s with rst := l }) := by
  unfold State.drivePin
  cases s.rst <;> cases l <;> simp

end Sys2Proof.Machine
end

