-- ==== Sys2Proof/Laws/Fairness.lean ====
section
/-! SUPPORT. Runs without end, one turn at a time: later proofs cite these and do not unfold a run. -/

namespace Sys2Proof.Machine

@[simp] theorem State.after_zero (events : Nat → Event) (s : State) : s.after events 0 = .next s := rfl

/-- One event more. -/
theorem State.after_succ {events : Nat → Event} {n : Nat} {s t : State} (h : s.after events n = .next t) :
    s.after events (n + 1) = step { t with inbox := [events n] } := by
  simp only [State.after, h]

@[simp] theorem HostRun.after_zero (schedule : Nat → Bool) (r : HostRun) : r.after schedule 0 = .next r := rfl

/-- A run under two schedules, one after the other. -/
theorem HostRun.run_append {xs ys : List Bool} {r q : HostRun} (h : r.run xs = .next q) :
    r.run (xs ++ ys) = q.run ys := by
  induction xs generalizing r with
  | nil => cases h; rfl
  | cons e rest ih =>
    simp only [List.cons_append, HostRun.run] at h ⊢
    cases ht : r.turn e with
    | next u => rw [ht] at h; exact ih h
    | fault f => rw [ht] at h; cases h
    | refused f => rw [ht] at h; cases h

/-- A run of one turn is that turn. -/
theorem HostRun.run_singleton (e : Bool) (r : HostRun) : r.run [e] = r.turn e := by
  simp only [HostRun.run]
  cases r.turn e <;> rfl

/-- One turn more. -/
theorem HostRun.after_succ {schedule : Nat → Bool} {n : Nat} {r q : HostRun} (h : r.after schedule n = .next q) :
    r.after schedule (n + 1) = q.turn (schedule n) := by
  unfold HostRun.after at h ⊢
  rw [List.range_succ, List.map_append, HostRun.run_append h]
  exact HostRun.run_singleton _ _

/-- The step of a block whose one pending event is the engine's turn. -/
theorem step_engine_event (s : State) (rest : List Event) :
    step { s with inbox := .engine :: rest } = engineTurn { s with inbox := rest } := rfl

end Sys2Proof.Machine
end

