-- ==== Sys2Proof/Laws/PerInstr.lean ====
section
/-! SUPPORT. What holds of every command as syntax, one lemma for each constructor: its command word has a zero reserved
field and a defined opcode (30_encoding.md R90, R91). -/

namespace Sys2Proof.Laws.WordForm

/-- The command's word is a legal command word, and the command is well formed. -/
def Statement (i : Instr) : Prop := i.wellFormed = true ∧ cmdRsvZero (Sys2Proof.encode i) = true ∧ cmdOpDefined (Sys2Proof.encode i) = true

theorem nop : Statement .nop := ⟨rfl, rfl, rfl⟩
theorem encode : Statement .encode := ⟨rfl, rfl, rfl⟩
theorem decode : Statement .decode := ⟨rfl, rfl, rfl⟩
theorem checksum : Statement .checksum := ⟨rfl, rfl, rfl⟩
theorem pack : Statement .pack := ⟨rfl, rfl, rfl⟩
theorem encodeAm : Statement .encodeAm := ⟨rfl, rfl, rfl⟩

end Sys2Proof.Laws.WordForm
end

