-- ==== Sys2Proof/Laws/Regs.lean ====
section
/-! SUPPORT. The 32-bit value of each register as a number and as fields, said once (10_state.md R23 to R41): later proofs
cite these and do not unfold a register's layout. -/

namespace Sys2Proof.Machine

/-- A concatenation as a number: the first part is the more significant one. -/
theorem toNat_concat {a b : Nat} (x : BitVec a) (y : BitVec b) : (x ++ y).toNat = x.toNat * 2 ^ b + y.toNat := by
  rw [BitVec.toNat_append, Nat.shiftLeft_eq, Nat.mul_comm, Nat.two_pow_add_eq_or_of_lt y.isLt]

@[simp] theorem RxIp0.word_toNat (r : RxIp0) :
    r.word.toNat = r.vihl.toNat * 2 ^ 24 + r.hlen.toNat * 2 ^ 16 + r.totlen.toNat := by
  refine (toNat_concat (r.vihl ++ (0 : BitVec 2) ++ r.hlen) r.totlen).trans ?_
  rw [toNat_concat, toNat_concat]; simp; omega

@[simp] theorem RxIp1.word_toNat (r : RxIp1) :
    r.word.toNat = r.ttl.toNat * 2 ^ 24 + r.proto.toNat * 2 ^ 16 + r.hcsum.toNat := by
  refine (toNat_concat (r.ttl ++ r.proto) r.hcsum).trans ?_
  rw [toNat_concat]; omega

@[simp] theorem RxIc0.word_toNat (r : RxIc0) :
    r.word.toNat = r.typ.toNat * 2 ^ 24 + r.code.toNat * 2 ^ 16 + r.csum.toNat := by
  refine (toNat_concat (r.typ ++ r.code) r.csum).trans ?_
  rw [toNat_concat]; omega

@[simp] theorem RxIc1.word_toNat (r : RxIc1) : r.word.toNat = r.id.toNat * 2 ^ 16 + r.seq.toNat :=
  toNat_concat r.id r.seq

@[simp] theorem Txh0.word_toNat (r : Txh0) : r.word.toNat = r.typ.toNat * 2 ^ 24 + r.code.toNat * 2 ^ 16 := by
  refine (toNat_concat (r.typ ++ r.code) (0 : BitVec 16)).trans ?_
  rw [toNat_concat]; simp; omega

@[simp] theorem Txh1.word_toNat (r : Txh1) : r.word.toNat = r.id.toNat * 2 ^ 16 + r.seq.toNat :=
  toNat_concat r.id r.seq

@[simp] theorem RxClass.word_toNat (r : RxClass) :
    r.word.toNat = r.amclass.bits.toNat + 4 * (if r.codez then 1 else 0) := by
  refine (toNat_concat ((0 : BitVec 29) ++ BitVec.ofBool r.codez) r.amclass.bits).trans ?_
  rw [toNat_concat]; cases r.codez <;> simp; omega

/-- A value of at most 17 bits, zero-extended. -/
@[simp] theorem zext17_toNat (v : BitVec 17) : BitVec.toNat (w := 32) ((0 : BitVec 15) ++ v) = v.toNat := by
  refine (toNat_concat (0 : BitVec 15) v).trans ?_
  simp

/-- CSUM, zero-extended. -/
@[simp] theorem zext16_toNat (v : Half) : BitVec.toNat (w := 32) ((0 : BitVec 16) ++ v) = v.toNat := by
  refine (toNat_concat (0 : BitVec 16) v).trans ?_
  simp

/-- The value of CSUM is the 16-bit checksum zero-extended (10_state.md R32). -/
@[simp] theorem readReg_csum_eq (s : State) : s.readReg .csum = s.csum.setWidth 32 := by
  apply BitVec.eq_of_toNat_eq
  refine (zext16_toNat s.csum).trans ?_
  have := s.csum.isLt
  simp; omega

end Sys2Proof.Machine
end

