-- ==== Sys2Proof/Laws/Window.lean ====
section
/-! SUPPORT. What one host transaction can do, said once. -/

namespace Sys2Proof.Machine

/-- The register map is read back by its own offsets. -/
@[simp] theorem Reg.ofOffset_offset (r : Reg) : Reg.ofOffset r.offset = some r := by cases r <;> rfl

@[simp] theorem Reg.windowOffset_toNat (r : Reg) : r.windowOffset.toNat = r.offset := by cases r <;> rfl

/-- A width's code names it. -/
@[simp] theorem Width.ofCode_code (n : Width) : Width.ofCode n.code = some n := by cases n <;> rfl

@[simp] theorem pbufOffset_toNat (i : BitVec 16) : (pbufOffset i).toNat = 0x10000 + i.toNat := by
  simp only [pbufOffset, BitVec.toNat_ofNat]
  have := i.isLt
  omega

/-- A 4-byte read at a register's offset. -/
@[simp] theorem State.transact_readReg (r : Reg) (s : State) :
    s.transact (Txn.readAt r.windowOffset .w4) = s.returnRead (s.readReg r) := by
  cases r <;> rfl

/-- A 4-byte write at a register's offset. -/
@[simp] theorem State.transact_writeReg (r : Reg) (w : Word) (s : State) :
    s.transact (Txn.writeAt r.windowOffset .w4 w) = s.writeReg r w := by
  cases r <;> rfl

/-- What a transaction can do: it is not performed, it reads, it writes a register, or it writes PBUF inside the buffer. -/
theorem State.transact_cases (x : Txn) (s : State) :
    s.transact x = s.notPerformed x.dir ∨
    (∃ v, x.dir = .read ∧ s.transact x = s.returnRead v) ∨
    (∃ r, x.dir = .write ∧ x.addr = r.windowOffset ∧ s.transact x = s.writeReg r x.wdata) ∨
    (∃ i n, x.dir = .write ∧ i + n ≤ s.bufSize ∧ s.status.busy = false ∧
      s.transact x = s.memWrite i n x.wdata.toNat) := by
  unfold State.transact
  cases Width.ofCode x.size with
  | none => exact .inl rfl
  | some n =>
    dsimp only
    split
    · unfold State.registerTxn
      cases n with
      | w1 => exact .inl rfl
      | w2 => exact .inl rfl
      | w4 =>
        cases hr : Reg.ofOffset x.addr.toNat with
        | none => exact .inl rfl
        | some r =>
          cases hd : x.dir with
          | read => exact .inr (.inl ⟨_, rfl, rfl⟩)
          | write =>
            refine .inr (.inr (.inl ⟨r, rfl, ?_, rfl⟩))
            apply BitVec.eq_of_toNat_eq
            rw [Reg.windowOffset_toNat]
            unfold Reg.ofOffset at hr
            split at hr <;> first | (cases hr; assumption) | cases hr
    · unfold State.pbufTxn
      split
      · rename_i hp
        simp only [State.pbufPerformed, Bool.and_eq_true, decide_eq_true_eq, Bool.not_eq_true'] at hp
        cases hd : x.dir with
        | read => exact .inr (.inl ⟨_, rfl, rfl⟩)
        | write => exact .inr (.inr (.inr ⟨_, _, rfl, hp.1.2, hp.2, rfl⟩))
      · exact .inl rfl

end Sys2Proof.Machine
end

