-- ==== Sys2Proof/Tests/Slice0.lean ====
section
/-! SUPPORT. The model's own tests: expected values are the vectors V<n> and programs P<n> of 95_test_vectors.md and the
encodings of 30_encoding.md, never the model's answer. Then, for each statement with hypotheses, a witness that meets
them. -/

namespace Sys2Proof.Tests

set_option Elab.async false

open Sys2Proof.Machine

/-! ## Helpers -/

/-- The outcome of a step. -/
abbrev Out := Host.Outcome State Fault Refusal

/-- The next state of an outcome (the reset state when there is none). -/
def out (o : Out) : State :=
  match o with
  | .next s => s
  | .fault _ => State.reset
  | .refused _ => State.reset

/-- Whether an outcome is a next state. -/
def isNext (o : Out) : Bool :=
  match o with
  | .next _ => true
  | .fault _ => false
  | .refused _ => false

theorem next_out {o : Out} (h : isNext o = true) : o = .next (out o) := by
  cases o with
  | next s => rfl
  | fault f => cases h
  | refused r => cases h

/-- The state after reset with the bytes `bs` written at PBUF[a ..), and BASE and LEN. -/
def st (base len : Word) (a : Nat) (bs : List Byte) : State :=
  { State.reset with base := base, len := len, pbuf := Memory.setBytes [] a bs }

/-- A state in which the word w has been accepted. -/
def running (w : Word) (s : State) : State := { s with cmd := w, status := ⟨true, false, .ok, false, false⟩ }

/-- The value of STATUS and of CSUM. -/
def obs (s : State) : Word × Half := (s.readReg .status, s.csum)

/-- The reference payload, the 13 ASCII bytes of `192.168.54.11` (V1). -/
def refPayload : List Byte := [0x31, 0x39, 0x32, 0x2E, 0x31, 0x36, 0x38, 0x2E, 0x35, 0x34, 0x2E, 0x31, 0x31]

/-- The IPv4 header of V10. -/
def ipHeader : List Byte :=
  [0x45, 0x00, 0x00, 0x20, 0x00, 0x00, 0x00, 0x00, 0x40, 0x01, 0x8D, 0x80, 0xC0, 0xA8, 0x36, 0x01, 0xC0, 0xA8, 0x36, 0x0B]

/-- The datagram of V10: an address-mask reply. -/
def v10 : List Byte := ipHeader ++ [0x12, 0x00, 0xEE, 0xFE, 0x00, 0x00, 0x00, 0x00, 0xFF, 0xFF, 0xFF, 0x00]

/-- The datagram of V15 with the stored checksum bytes h and l. -/
def v15 (h l : Byte) : List Byte :=
  [0x45, 0x00, 0x00, 0x1C, 0x00, 0x00, 0x00, 0x00, 0x40, 0x01, 0x8D, 0x84, 0xC0, 0xA8, 0x36, 0x01, 0xC0, 0xA8, 0x36, 0x0B] ++
    [0x12, 0x00, h, l, 0xED, 0xFF, 0x00, 0x00]

/-! ## Well-formedness: each check refuses an ill-formed term -/

/-- 00_scope.md R7: 28 <= BUF_SIZE. -/
theorem test_bufSize_below_28_refused : Config.bufSizeOk 24 = false := by decide
/-- 00_scope.md R7: BUF_SIZE <= 65536. -/
theorem test_bufSize_above_65536_refused : Config.bufSizeOk 65540 = false := by decide
/-- 00_scope.md R7: BUF_SIZE mod 4 = 0. -/
theorem test_bufSize_not_multiple_of_4_refused : Config.bufSizeOk 30 = false := by decide
/-- 00_scope.md R7: the default and both ends of the range. -/
theorem test_bufSize_accepted : Config.bufSizeOk 65536 = true ∧ Config.bufSizeOk 28 = true := by decide
/-- V27: 0x00000011 has OP = 1 but RSV is not 0. -/
theorem test_word_reserved_bits_refused : cmdWellFormed 0x00000011 = false := by decide
/-- V27: 0x00000006 and 0x0000000F have an undefined opcode. -/
theorem test_word_reserved_opcode_refused : cmdWellFormed 0x00000006 = false ∧ cmdWellFormed 0x0000000F = false := by decide
/-- Every command is well formed. -/
theorem test_commands_well_formed :
    [Instr.nop, .encode, .decode, .checksum, .pack, .encodeAm].all Instr.wellFormed = true := by decide

/-! ## Decoding: every constructor's word, bit by bit (30_encoding.md R91), and the rejections by name -/

theorem test_decode_nop : decodeWord 0b00000000000000000000000000000000#32 = .ok .nop := rfl
theorem test_decode_encode : decodeWord 0b00000000000000000000000000000001#32 = .ok .encode := rfl
theorem test_decode_decode : decodeWord 0b00000000000000000000000000000010#32 = .ok .decode := rfl
theorem test_decode_checksum : decodeWord 0b00000000000000000000000000000011#32 = .ok .checksum := rfl
theorem test_decode_pack : decodeWord 0b00000000000000000000000000000100#32 = .ok .pack := rfl
theorem test_decode_encodeAm : decodeWord 0b00000000000000000000000000000101#32 = .ok .encodeAm := rfl
/-- 30_encoding.md R93: OP = 6 and OP = 15 are reserved. -/
theorem test_decode_reserved_opcode :
    decodeWord 0x00000006 = .error (.reservedOpcode 6) ∧ decodeWord 0x0000000F = .error (.reservedOpcode 15) := ⟨rfl, rfl⟩
/-- 30_encoding.md R92: RSV is not zero, at both of its ends. -/
theorem test_decode_reserved_bits :
    decodeWord 0x00000011 = .error (.reservedBits 1) ∧ decodeWord 0x80000000 = .error (.reservedBits 0x8000000) :=
  ⟨rfl, rfl⟩
theorem test_decodeTableWord :
    decodeTableWord 32 0 = some .nop ∧ decodeTableWord 32 1 = some .encode ∧ decodeTableWord 32 2 = some .decode ∧
    decodeTableWord 32 3 = some .checksum ∧ decodeTableWord 32 4 = some .pack ∧
    decodeTableWord 32 5 = some .encodeAm ∧ decodeTableWord 32 6 = none := by decide

/-! ## The commands -/

/-- V26. -/
theorem test_nop : out (exec .nop State.reset) = { State.reset with status := ⟨false, true, .ok, false, false⟩ } := by decide
/-- V1: an odd-length segment, payload `192.168.54.11`. -/
theorem test_encode_reference_segment :
    (fun t : State => (t.pbufBytes 0 21, obs t)) (out (exec .encode { st 0 13 8 refPayload with txh0 := ⟨0x11, 0x00⟩ })) =
      ([0x11, 0x00, 0x8D, 0xCE, 0x00, 0x00, 0x00, 0x00] ++ refPayload, 0x00000002, 0x8DCE) := by decide +kernel
/-- V7: an odd BASE, all-ones fields; and V8 (a): no 32-bit wrap. -/
theorem test_encode_odd_base_and_length_limit :
    (fun t : State => (t.pbufBytes 1 11, obs t))
        (out (exec .encode { st 1 3 9 [0x01, 0x02, 0x03] with txh0 := ⟨0xFF, 0xFF⟩, txh1 := ⟨0xFFFF, 0xFFFF⟩ })) =
      ([0xFF, 0xFF, 0xFB, 0xFD, 0xFF, 0xFF, 0xFF, 0xFF, 0x01, 0x02, 0x03], 0x00000002, 0xFBFD) ∧
    obs (out (exec .encode (st 0xFFFFFFF8 8 0 []))) = (0x00000032, 0x0000) := by decide +kernel
/-- V3. -/
theorem test_encodeAm_reply :
    (fun t : State => (t.pbufBytes 0 12, obs t))
        (out (exec .encodeAm { State.reset with txh0 := ⟨0x12, 0x00⟩, mask := 0xFFFFFF00 })) =
      ([0x12, 0x00, 0xEE, 0xFE, 0x00, 0x00, 0x00, 0x00, 0xFF, 0xFF, 0xFF, 0x00], 0x00000002, 0xEEFE) := by decide +kernel
/-- V4, second row. -/
theorem test_encodeAm_all_ones_mask :
    (fun t : State => (t.pbufBytes 0 12, obs t))
        (out (exec .encodeAm { State.reset with txh0 := ⟨0x11, 0x00⟩, mask := 0xFFFFFFFF })) =
      ([0x11, 0x00, 0xEE, 0xFF, 0x00, 0x00, 0x00, 0x00, 0xFF, 0xFF, 0xFF, 0xFF], 0x00000002, 0xEEFF) := by decide +kernel
/-- V9 (c): the payload ends exactly at BUF_SIZE, CSUM is not written. -/
theorem test_pack_at_the_end_of_the_buffer :
    (fun t : State => (t.pbuf, obs t)) (out (exec .pack { State.reset with base := 65524, mask := 0x01020304 })) =
      ([(65532, 0x01), (65533, 0x02), (65534, 0x03), (65535, 0x04)], 0x00000002, 0x0000) := by decide +kernel
/-- V9 (d): one byte too far. -/
theorem test_pack_beyond_the_buffer :
    (fun t : State => (t.pbuf, obs t)) (out (exec .pack { State.reset with base := 65525, mask := 0x01020304 })) =
      ([], 0x00000032, 0x0000) := by decide +kernel
/-- V24 (a) and (b): the header check of a correct header, and of one with TTL 63. -/
theorem test_checksum_ipv4_header :
    obs (out (exec .checksum (st 0 20 0 v10))) = (0x00000002, 0x0000) ∧
    obs (out (exec .checksum (st 0 20 0 (v10.set 8 0x3F)))) = (0x00000002, 0x0100) := by decide +kernel
/-- V23 and V25 (a): the empty range, an odd base and length, no wrap. -/
theorem test_checksum_corners :
    obs (out (exec .checksum (st 65536 0 0 []))) = (0x00000002, 0xFFFF) ∧
    obs (out (exec .checksum (st 5 1 5 [0xAB]))) = (0x00000002, 0x54FF) ∧
    obs (out (exec .checksum (st 0xFFFFFFFF 1 0 []))) = (0x00000032, 0x0000) := by decide +kernel
/-- V10: all ten result registers. -/
theorem test_decode_address_mask_reply :
    (fun t : State => (t.readReg .status, [Reg.rxIp0, .rxIp1, .rxSrc, .rxDst, .rxIc0, .rxIc1, .rxPloff, .rxPllen, .rxMask,
        .rxClass].map fun r => t.readReg r)) (out (exec .decode (st 0 32 0 v10))) =
      (0x00000002, [0x45140020, 0x40018D80, 0xC0A83601, 0xC0A8360B, 0x1200EEFE, 0x00000000, 0x0000001C, 0x00000004,
        0xFFFFFF00, 0x00000006]) := by decide +kernel
/-- V15 (a) and (b), V17 (a), V18, V20 (b), V16 (c). -/
theorem test_decode_result_codes :
    ([st 0 28 0 (v15 0xFF 0xFF), st 0 28 0 (v15 0x00 0x00), st 0 19 0 v10, st 0 32 0 (v10.set 0 0x4F), st 0xFFFFFFFF 1 0 [],
        st 0 28 0 v10].map fun s => (out (exec .decode s)).readReg .status) =
      [0x00000022, 0x00000002, 0x00000012, 0x00000012, 0x00000032, 0x00000022] := by decide +kernel
/-- V27: an illegal word completes with RESULT = 4 and writes nothing else. -/
theorem test_illegal_word :
    out (engineCommand (running 0x00000011 State.reset)) =
      { State.reset with cmd := 0x00000011, status := ⟨false, true, .illegalOp, false, false⟩ } := by decide

/-! ## The Internet checksum (V40 to V47) -/

theorem test_checksum_vectors :
    ([[], [0xAB], [0xFF, 0xFF], [0xFF, 0xFF, 0x00, 0x01], [0, 0, 0, 0, 0, 0, 0, 0], [0x00, 0x01], [0xFF, 0xFF, 0xFF, 0xFF],
        [0x11, 0, 0, 0, 0, 0, 0, 0] ++ refPayload].map inetChecksum) =
      [0xFFFF, 0x54FF, 0x0000, 0xFFFE, 0xFFFF, 0xFFFE, 0x0000, 0x8DCE] := by decide +kernel

/-! ## The host window -/

/-- V28, its six rows: BUSERR, and a read of 0. -/
theorem test_not_performed :
    ([(State.reset, Txn.readAt 0x00002 .w4), (State.reset, Txn.writeAt 0x0000C .w2 0x0005),
        (State.reset, Txn.readAt 0x00050 .w4), (State.reset, Txn.readAt 0x0FFFC .w4),
        (State.reset, Txn.writeAt 0x10002 .w4 0x11223344),
        ({ State.reset with bufsz := 1024 }, Txn.readAt 0x10400 .w1)].all fun p =>
      p.1.transact p.2 == { p.1 with status := ⟨false, false, .ok, false, true⟩, rdata := 0 }) = true := by decide +kernel

/-- V29: the window's byte order. -/
theorem test_window_byte_order :
    ([Txn.readAt 0x10000 .w4, Txn.readAt 0x10002 .w2, Txn.readAt 0x10000 .w2, Txn.readAt 0x10001 .w1].map fun x =>
        ((State.reset.transact (Txn.writeAt 0x10000 .w4 0x45000020)).transact x).rdata) =
      [0x45000020, 0x00000020, 0x00004500, 0x00000000] := by decide +kernel

/-- V30: reserved bits of TXH0 and CONFIG. -/
theorem test_reserved_bits_read_zero :
    (State.reset.transact (Txn.writeAt 0x00014 .w4 0x1100FFFF)).readReg .txh0 = 0x11000000 ∧
    (State.reset.transact (Txn.writeAt 0x00008 .w4 0xFFFFFFFF)).readReg .config = 0x00000001 := by decide +kernel

/-- V5, from the window: TXH0 and TXH1 written as words give the header's TYPE, CODE, ID and SEQ bytes. -/
theorem test_operand_words_reach_the_header :
    (fun t : State => (t.pbufBytes 0 8, t.csum)) (out (exec .encode ((State.reset.transact
        (Txn.writeAt 0x00014 .w4 0x08000000)).transact (Txn.writeAt 0x00018 .w4 0x12340001)))) =
      ([0x08, 0x00, 0xE5, 0xCA, 0x12, 0x34, 0x00, 0x01], 0xE5CA) ∧
    (State.reset.transact (Txn.writeAt 0x00014 .w4 0x0803FFFF)).txh0 = ⟨0x08, 0x03⟩ := by decide +kernel

/-- V31: what a BUSY block does with LEN, PBUF, CMD and CONFIG. -/
theorem test_busy_interlock :
    (fun t : State => (t.readReg .status, t.len, t.cmd, t.config.ie, t.irq))
        ([Txn.writeAt 0x0000C .w4 8, Txn.readAt 0x10000 .w4, Txn.writeAt 0x00000 .w4 1, Txn.writeAt 0x00008 .w4 1].foldl
          (fun s x => s.transact x) (running 3 (st 0 4 0 [0, 0, 0, 0]))) =
      (0x00000301, 4, 0x00000003, true, false) := by decide +kernel

/-- V32: the write-one-to-clear bits, while BUSY. -/
theorem test_status_write_one_to_clear :
    (((running 7 State.reset).transact (Txn.writeAt 0x00000 .w4 0)).transact
      (Txn.writeAt 0x00004 .w4 0xFFFFFFFF)).readReg .status = 0x00000001 := by decide +kernel

/-- V34: reset while BUSY; the abandoned command leaves no trace. -/
theorem test_reset_while_busy :
    ({ running 3 (st 0 4 0 [1, 2]) with rst := true }).drivePin false = { State.reset with epoch := 1 } := by decide

/-! ## A step, and the host's programs -/

/-- After `withFetchWord`, the very next step runs the word: PACK with the reset operands writes four zero bytes. -/
theorem test_withFetchWord_runs_pack :
    out (step (State.reset.withFetchWord 32 4)) =
      { State.reset with
        cmd := 4, status := ⟨false, true, .ok, false, false⟩
        pbuf := [(8, 0), (9, 0), (10, 0), (11, 0)] } := by decide +kernel

/-- P4: `cmd NOP` is the transaction (write, 0x00000, 4, 0x00000000), `ack` is (write, 0x00004, 4, 0x00000302), `hdr 17, 0,
0, 0` is the two writes of P1. -/
theorem test_program_transactions :
    ((HostOp.cmd .nop ++ HostOp.ack ++ HostOp.hdr 17 0 0 0).filterMap HostOp.txn) =
      [⟨.write, 0x00000, 2, 0x00000000⟩, ⟨.write, 0x00004, 2, 0x00000302⟩, ⟨.write, 0x00014, 2, 0x11000000⟩,
        ⟨.write, 0x00018, 2, 0x00000000⟩] := by decide +kernel

/-- `cmd NOP`, `wait`, `halt` with one poll that finds BUSY: the loop is taken once, then the run ends (30_encoding.md R102). -/
theorem test_program_wait_loop :
    (match (HostRun.mk (HostOp.cmd .nop ++ HostOp.wait 0 0 ++ [.halt]) 0 [] State.reset).run
        [false, false, false, false, true, false, false, false] with
      | .next r => (r.pc, r.temp 0, r.ended)
      | .fault _ => (0, 0, false)
      | .refused _ => (0, 0, false)) = (4, 0x00000002, true) := by decide +kernel

/-! ## Witnesses: concrete states and operands that meet the hypotheses of each statement -/

/-- A state whose next event is e. -/
def ev (e : Event) (s : State) : State := { s with inbox := [e] }

/-- ENCODE of a 4-byte payload behind the IPv4 header of V10: BASE = 20, LEN = 4. -/
def enc : State := { st 20 4 0 (ipHeader ++ [0, 0, 0, 0, 0, 0, 0, 0, 0xFF, 0xFF, 0xFF, 0x00]) with txh0 := ⟨0x12, 0x00⟩ }

/-- The state after that ENCODE. -/
def encoded : State := out (exec .encode enc)

/-- The state before the DECODE of what it wrote. -/
def dec : State := { encoded with base := 0, len := 32 }

/-- The state before a DECODE of the V10 datagram. -/
def decV10 : State := st 0 32 0 v10

/-- The same datagram, its last payload byte flipped in bit 0 (V21). -/
def decV21 : State := { dec with pbuf := Memory.set encoded.pbuf 31 0x01 }

theorem witness_DecodeIsTotalAndInvertsEncode : decodeWord 5 = .ok .encodeAm ∧ encode .encodeAm = 5 := ⟨rfl, rfl⟩

/-- The release, the assertion (while BUSY), and the pin driven to 0 when it is 0. -/
theorem witness_ReleaseOfResetClearsEveryRegister :
    (∃ (s : State) (rest : List Event), s.rst = true ∧ s.inbox = .rst false :: rest) ∧
    (∃ (s : State) (rest : List Event), s.rst = false ∧ s.status.busy = true ∧ s.inbox = .rst true :: rest) ∧
    (∃ (s : State) (rest : List Event), s.rst = false ∧ s.inbox = .rst false :: rest) :=
  ⟨⟨ev (.rst false) { running 3 decV10 with rst := true }, [], rfl, rfl⟩, ⟨ev (.rst true) (running 3 decV10), [], rfl, rfl, rfl⟩,
    ⟨ev (.rst false) State.reset, [], rfl, rfl⟩⟩

/-- The running DECODE of V10 meets the invariant, and its step completes it. -/
theorem witness_EveryStepKeepsTheInvariant :
    ∃ s t : State, s.Inv ∧ step s = .next t ∧ s.status.busy = true ∧ t.status.done = true :=
  ⟨running 2 decV10, out (step (running 2 decV10)),
    ⟨by decide +kernel, by decide +kernel, by decide +kernel, by decide, by decide, by decide, .inl rfl⟩,
    next_out (by decide +kernel), rfl, by decide +kernel⟩

theorem witness_BufszIsConstant : ∃ s t : State, step s = .next t ∧ s.rst = true ∧ t.rst = false :=
  ⟨ev (.rst false) { State.reset with rst := true }, _, rfl, rfl, rfl⟩

/-- A BUSY block with no event left, and with the engine's turn next; an IDLE block, and one whose rst is asserted. -/
theorem witness_StepRunsTheAcceptedCommand :
    (∃ (s : State) (i : Instr), s.rst = false ∧ s.status.busy = true ∧ decodeWord s.cmd = .ok i ∧ s.inbox = []) ∧
    (∃ (s : State) (i : Instr) (rest : List Event), s.rst = false ∧ s.status.busy = true ∧ decodeWord s.cmd = .ok i ∧
      s.inbox = .engine :: rest) ∧
    (∃ s : State, s.status.busy = false ∧ s.inbox = []) ∧
    (∃ (s : State) (rest : List Event), s.rst = true ∧ s.status.busy = true ∧ s.inbox = .engine :: rest) :=
  ⟨⟨running 2 decV10, .decode, rfl, rfl, rfl, rfl⟩,
    ⟨ev .engine (running 5 State.reset), .encodeAm, [], rfl, rfl, rfl, rfl⟩, ⟨decV10, rfl, rfl⟩,
    ⟨ev .engine { running 5 State.reset with rst := true }, [], rfl, rfl, rfl⟩⟩

/-- RSV not 0 (0x11); the first undefined opcode (6). -/
theorem witness_IllegalWordCompletesWithIllegalOp :
    (∃ s : State, s.cmd.extractLsb' 4 28 ≠ 0 ∧ s.rst = false ∧ s.status.busy = true ∧ s.inbox = []) ∧
    (∃ s : State, 6 ≤ (s.cmd.extractLsb' 0 4).toNat ∧ s.rst = false ∧ s.status.busy = true ∧ s.inbox = []) :=
  ⟨⟨running 0x11 State.reset, by decide, rfl, rfl, rfl⟩, ⟨running 6 State.reset, by decide, rfl, rfl, rfl⟩⟩

theorem witness_CmdWriteWhileIdleIsAccepted :
    ∃ (s : State) (w : Word) (rest : List Event), s.rst = false ∧ s.status.busy = false ∧
      s.inbox = .txn (Txn.writeAt Reg.cmd.windowOffset .w4 w) :: rest :=
  ⟨ev (.txn (Txn.writeAt Reg.cmd.windowOffset .w4 0xFFFFFFFF)) State.reset, 0xFFFFFFFF, [], rfl, rfl, rfl⟩

theorem witness_CmdWriteWhileBusyOnlySetsOverrun :
    ∃ (s : State) (w : Word) (rest : List Event), s.rst = false ∧ s.status.busy = true ∧
      s.inbox = .txn (Txn.writeAt Reg.cmd.windowOffset .w4 w) :: rest :=
  ⟨ev (.txn (Txn.writeAt Reg.cmd.windowOffset .w4 0)) (running 2 State.reset), 0, [], rfl, rfl, rfl⟩

/-- An acceptance; a completion; a reset while BUSY. -/
theorem witness_EngineChangesStateOnlyByItsLifeCycle :
    (∃ s t : State, step s = .next t ∧ s.status.busy = false ∧ t.status.busy = true) ∧
    (∃ s t : State, step s = .next t ∧ s.status.busy = true ∧ t.status.busy = false ∧ s.rst = false) ∧
    (∃ s t : State, step s = .next t ∧ s.status.busy = true ∧ t.status.busy = false ∧ s.rst = true) :=
  ⟨⟨ev (.txn (Txn.writeAt Reg.cmd.windowOffset .w4 0)) State.reset, _, rfl, rfl, rfl⟩,
    ⟨running 0 State.reset, _, rfl, rfl, rfl, rfl⟩,
    ⟨ev (.rst false) { running 0 State.reset with rst := true }, _, rfl, rfl, rfl, rfl⟩⟩

/-- A host write while BUSY; a completion; a reset. -/
theorem witness_RunningCommandIsNeverCancelledByTheHost :
    (∃ s t : State, step s = .next t ∧ s.status.busy = true ∧ t.status.busy = true) ∧
    (∃ s t : State, step s = .next t ∧ s.status.busy = true ∧ engineCommand s.popped = .next t) ∧
    (∃ s t : State, step s = .next t ∧ s.status.busy = true ∧ s.rst = true ∧ s.inbox = [.rst false]) :=
  ⟨⟨ev (.txn (Txn.writeAt Reg.cmd.windowOffset .w4 5)) (running 0 State.reset), _, rfl, rfl, rfl⟩,
    ⟨running 0 State.reset, _, rfl, rfl, rfl⟩,
    ⟨ev (.rst false) { running 0 State.reset with rst := true }, _, rfl, rfl, rfl, rfl⟩⟩

/-- DONE rises and RESULT changes at one completion; RESULT changes at a reset. -/
theorem witness_DoneRisesOnlyAtACompletion :
    (∃ s t : State, step s = .next t ∧ t.status.done = true ∧ s.status.done = false ∧
      t.status.result ≠ s.status.result) ∧
    (∃ s t : State, step s = .next t ∧ t.status.result ≠ s.status.result ∧ s.rst = true) :=
  ⟨⟨running 7 State.reset, _, rfl, rfl, rfl, by decide⟩,
    ⟨ev (.rst false) { State.reset with rst := true, status := ⟨false, true, .illegalOp, false, false⟩ }, _, rfl, by decide,
      rfl⟩⟩

theorem witness_AcceptedCommandsComplete :
    ∃ s : State, s.rst = false ∧ (∀ l, Event.rst l ∉ s.inbox) ∧ s.status.busy = true ∧ s.inbox ≠ [] :=
  ⟨ev (.txn (Txn.readAt Reg.status.windowOffset .w4)) (running 2 decV10), rfl,
    by intro l h; simp [ev] at h, rfl, by simp [ev]⟩

/-- V15 (a). -/
theorem witness_FailureIsAllOrNothing :
    ∃ s t : State, engineCommand s = .next t ∧ t.status.result ≠ .ok :=
  ⟨running 2 (st 0 28 0 (v15 0xFF 0xFF)), out (engineCommand (running 2 (st 0 28 0 (v15 0xFF 0xFF)))),
    next_out (by decide +kernel), by decide +kernel⟩

/-- Two different states that agree on a DECODE's operands and bytes. -/
theorem witness_ExecDependsOnlyOnItsOperands :
    ∃ (i : Instr) (s s' : State), s.len = s'.len ∧ s.base = s'.base ∧ s.txh0 = s'.txh0 ∧ s.txh1 = s'.txh1 ∧
      s.mask = s'.mask ∧ s.bufsz = s'.bufsz ∧ (∀ a, mayRead i s a → s.pbufByte a = s'.pbufByte a) ∧ s ≠ s' :=
  ⟨.decode, decV10, { decV10 with csum := 1 }, rfl, rfl, rfl, rfl, rfl, rfl, fun _ _ => rfl, by decide +kernel⟩

/-- The range that ends exactly at BUF_SIZE, and the one a byte longer, for each command (V8, V9, V20, V23). -/
theorem witness_BadLengthExactlyWhenTheRangeDoesNotFit :
    ([(Instr.encode, (65528 : Word), (0 : Word)), (.encode, 65529, 0), (.pack, 65524, 0), (.pack, 65525, 0),
        (.encodeAm, 65524, 0), (.encodeAm, 65525, 0), (.decode, 65536, 0), (.decode, 65536, 1), (.checksum, 65536, 0),
        (.checksum, 65536, 1)].map fun p => decide ((out (exec p.1 (st p.2.1 p.2.2 0 []))).status.result = .badLength)) =
      [false, true, false, true, false, true, false, true, false, true] := by decide +kernel

/-- V8 (b), (c): the segment that ends at BUF_SIZE, and the next one. -/
theorem witness_EncodeWritesHeaderAndChecksum :
    (∃ s : State, s.base.toNat + 8 + s.len.toNat = s.bufsz.toNat) ∧
    (∃ s : State, s.bufsz.toNat < s.base.toNat + 8 + s.len.toNat) :=
  ⟨⟨st 65528 0 0 [], by decide⟩, ⟨st 65529 0 0 [], by decide⟩⟩

/-- V9 (c), (d). Also for ENCODE_AM. -/
theorem witness_PackWritesTheMaskPayload :
    (∃ s : State, s.base.toNat + 12 = s.bufsz.toNat) ∧ (∃ s : State, s.bufsz.toNat < s.base.toNat + 12) :=
  ⟨⟨st 65524 0 0 [], by decide⟩, ⟨st 65525 0 0 [], by decide⟩⟩

theorem witness_EncodeAmWritesTheWholeMessage :
    (∃ s : State, s.base.toNat + 12 = s.bufsz.toNat) ∧ (∃ s : State, s.bufsz.toNat < s.base.toNat + 12) :=
  witness_PackWritesTheMaskPayload

/-- V23 (c), V25. -/
theorem witness_ChecksumWritesCsum :
    (∃ s : State, s.base.toNat + s.len.toNat = s.bufsz.toNat) ∧
    (∃ s : State, s.bufsz.toNat < s.base.toNat + s.len.toNat) :=
  ⟨⟨st 65536 0 0 [], by decide⟩, ⟨st 65536 1 0 [], by decide⟩⟩

/-- V10, and V15 (b) with N = H + 8 exactly. The clauses for a failing check are met by the states of
`witness_DecodeReportsTheFirstFailingCheck`. -/
theorem witness_DecodeWritesTheResultRegisters :
    (∃ (s : State) (B N H S : Nat) (cal : Half),
      B = s.base.toNat ∧ N = s.len.toNat ∧ H = ((s.pbufByte B).toNat &&& 0x0F) * 4 ∧ S = B + H ∧
      cal = inetChecksum (s.pbufBytes S 2 ++ [0x00, 0x00] ++ s.pbufBytes (S + 4) (N - H - 4)) ∧
      B + N ≤ s.bufsz.toNat ∧ 20 ≤ N ∧ H + 8 < N ∧ cal.toNat = s.memRead (S + 2) 2) ∧
    (∃ (s : State) (B N H S : Nat) (cal : Half),
      B = s.base.toNat ∧ N = s.len.toNat ∧ H = ((s.pbufByte B).toNat &&& 0x0F) * 4 ∧ S = B + H ∧
      cal = inetChecksum (s.pbufBytes S 2 ++ [0x00, 0x00] ++ s.pbufBytes (S + 4) (N - H - 4)) ∧
      B + N ≤ s.bufsz.toNat ∧ 20 ≤ N ∧ H + 8 = N ∧ cal.toNat = s.memRead (S + 2) 2) :=
  ⟨⟨decV10, 0, 32, 20, 20, 0xEEFE, by decide +kernel⟩, ⟨st 0 28 0 (v15 0x00 0x00), 0, 28, 20, 20, 0x0000, by decide +kernel⟩⟩

/-- Each of the five outcomes of DECODE's checks is reached (V10, V15, V16, V17, V20). -/
theorem witness_DecodeReportsTheFirstFailingCheck :
    ([decV10, st 0 28 0 (v15 0xFF 0xFF), st 0 27 0 (v15 0x00 0x00), st 0 19 0 v10, st 65536 1 0 []].map fun s =>
        (out (exec .decode s)).status.result) =
      [.ok, .checksumMismatch, .truncated, .truncated, .badLength] := by decide +kernel

theorem witness_ChecksumMismatchIsAnExactComparison :
    ∃ (s : State) (H S : Nat), H = ((s.pbufByte s.base.toNat).toNat &&& 0x0F) * 4 ∧ S = s.base.toNat + H ∧
      s.base.toNat + s.len.toNat ≤ s.bufsz.toNat ∧ 20 ≤ s.len.toNat ∧ H + 8 = s.len.toNat :=
  ⟨st 0 28 0 (v15 0xFF 0xFF), 20, 20, by decide +kernel⟩

/-- An OK DECODE; a range beyond the buffer; two states that agree on the datagram and on nothing beyond it. -/
theorem witness_DecodeStaysInsideTheDatagram :
    (∃ s t : State, exec .decode s = .next t ∧ t.status.result = .ok) ∧
    (∃ s : State, s.bufsz.toNat < s.base.toNat + s.len.toNat) ∧
    (∃ s s' : State, s.base = s'.base ∧ s.len = s'.len ∧ s.bufsz = s'.bufsz ∧
      (∀ a, s.base.toNat ≤ a → a < s.base.toNat + s.len.toNat → s.pbufByte a = s'.pbufByte a) ∧
      s.pbufByte 32 ≠ s'.pbufByte 32) :=
  ⟨⟨decV10, out (exec .decode decV10), next_out (by decide +kernel), by decide +kernel⟩, ⟨st 65536 1 0 [], by decide⟩,
    ⟨st 0 32 0 (v10 ++ [1]), st 0 32 0 (v10 ++ [2]), rfl, rfl, rfl, by
      have h : ∀ a, a < 32 → (st 0 32 0 (v10 ++ [1])).pbufByte a = (st 0 32 0 (v10 ++ [2])).pbufByte a := by decide +kernel
      intro a _ h2; exact h a (by simpa [st] using h2), by decide +kernel⟩⟩

/-- Also for the statement about RX_CLASS. -/
theorem witness_RxMaskTakesTheFirstFourPayloadBytes :
    (∃ s t : State, exec .decode s = .next t ∧ t.status.result = .ok ∧ 3 < (t.readReg .rxPllen).toNat) ∧
    (∃ s t : State, exec .decode s = .next t ∧ t.status.result = .ok ∧ (t.readReg .rxPllen).toNat = 0) :=
  ⟨⟨decV10, out (exec .decode decV10), next_out (by decide +kernel), by decide +kernel⟩,
    ⟨st 0 28 0 (v15 0x00 0x00), out (exec .decode (st 0 28 0 (v15 0x00 0x00))), next_out (by decide +kernel),
      by decide +kernel⟩⟩

theorem witness_RxClassFollowsTypeAndCode : ∃ s t : State, exec .decode s = .next t ∧ t.status.result = .ok :=
  ⟨decV10, out (exec .decode decV10), next_out (by decide +kernel), by decide +kernel⟩

/-- A successful DECODE, and a reset after it. -/
theorem witness_RxRegistersChangeOnlyAtASuccessfulDecode :
    (∃ s t : State, step s = .next t ∧ t.rx ≠ s.rx ∧ s.rst = false) ∧
    (∃ s t : State, step s = .next t ∧ t.rx ≠ s.rx ∧ s.rst = true) :=
  ⟨⟨running 2 decV10, out (step (running 2 decV10)), next_out (by decide +kernel), by decide +kernel, rfl⟩,
    ⟨ev (.rst false) { State.reset with rst := true, rx := decV10.decodedRx }, _, rfl, by decide +kernel, rfl⟩⟩

/-- A CHECKSUM (of the empty range), and a reset after it. -/
theorem witness_CsumChangesOnlyAtASuccessfulChecksumCommand :
    (∃ s t : State, step s = .next t ∧ t.csum ≠ s.csum ∧ s.rst = false) ∧
    (∃ s t : State, step s = .next t ∧ t.csum ≠ s.csum ∧ s.rst = true) :=
  ⟨⟨running 3 State.reset, out (step (running 3 State.reset)), next_out (by decide +kernel), by decide +kernel, rfl⟩,
    ⟨ev (.rst false) { State.reset with rst := true, csum := 0xFFFF }, _, rfl, by decide, rfl⟩⟩

/-- A byte that ENCODE_AM and one that ENCODE changes. -/
theorem witness_CommandsWriteOnlyTheirFootprint :
    (∃ (s t : State) (a : Nat), exec .encodeAm s = .next t ∧ t.pbufByte a ≠ s.pbufByte a) ∧
    (∃ (s t : State) (a : Nat), exec .encode s = .next t ∧ t.pbufByte a ≠ s.pbufByte a) :=
  ⟨⟨{ st 0 0 8 [0] with mask := 0xFFFFFF00 }, out (exec .encodeAm { st 0 0 8 [0] with mask := 0xFFFFFF00 }), 8,
      next_out (by decide +kernel), by decide +kernel⟩,
    ⟨enc, encoded, 20, next_out (by decide +kernel), by decide +kernel⟩⟩

/-- The first and the last register, while BUSY. -/
theorem witness_RegisterReadsHaveNoSideEffect :
    (∃ (s : State) (rest : List Event), ((0x00000 : BitVec 17), Reg.cmd) ∈ offsetTable ∧ s.rst = false ∧
      s.status.busy = true ∧ s.inbox = .txn ⟨.read, 0x00000, 2, 0⟩ :: rest) ∧
    (∃ (s : State) (rest : List Event), ((0x0004C : BitVec 17), Reg.bufsz) ∈ offsetTable ∧ s.rst = false ∧
      s.status.busy = true ∧ s.inbox = .txn ⟨.read, 0x0004C, 2, 0⟩ :: rest) :=
  ⟨⟨ev (.txn ⟨.read, 0x00000, 2, 0⟩) (running 2 decV10), [], by decide, rfl, rfl, rfl⟩,
    ⟨ev (.txn ⟨.read, 0x0004C, 2, 0⟩) (running 2 decV10), [], by decide, rfl, rfl, rfl⟩⟩

theorem witness_WritableRegistersReadBack : ∃ (s : State) (q : Reg), s.status.busy = false ∧ q = .txh0 :=
  ⟨State.reset, .txh0, rfl, rfl⟩

theorem witness_ReadOnlyRegistersIgnoreWrites :
    Reg.bufsz ∈ [Reg.csum, .rxIp0, .rxIp1, .rxSrc, .rxDst, .rxIc0, .rxIc1, .rxPloff, .rxPllen, .rxMask, .rxClass,
      .bufsz] := by decide

/-- The last byte, half-word and word of PBUF; for the reads, the writes and (the word) the mixed widths. -/
theorem witness_PbufWindowReadReturnsBigEndianValue :
    ∃ s : State, s.status.busy = false ∧
      [((65535 : BitVec 16), Width.w1), (65534, .w2), (65532, .w4)].all (fun p =>
        decide (p.1.toNat % p.2.bytes = 0) && decide (p.1.toNat + p.2.bytes = s.bufsz.toNat)) = true :=
  ⟨State.reset, rfl, by decide⟩

theorem witness_PbufWindowWriteIsBigEndian :
    ∃ s : State, s.status.busy = false ∧
      [((65535 : BitVec 16), Width.w1), (65534, .w2), (65532, .w4)].all (fun p =>
        decide (p.1.toNat % p.2.bytes = 0) && decide (p.1.toNat + p.2.bytes = s.bufsz.toNat)) = true :=
  witness_PbufWindowReadReturnsBigEndianValue

theorem witness_MixedWidthReadsSeeTheSameBytes :
    ∃ (s : State) (i : BitVec 16), s.status.busy = false ∧ i.toNat % 4 = 0 ∧ i.toNat + 4 = s.bufsz.toNat :=
  ⟨State.reset, 65532, rfl, by decide, by decide⟩

/-- The listed cases of an access that is not performed, each at a boundary: the width code; register accesses of two bytes,
at offset 0x4E, at 0x50 and, while BUSY, to LEN and to MASK, and of two bytes to CMD (log entry 14); PBUF accesses misaligned, one byte beyond the last word, and
while BUSY. And accesses next to each that are performed. -/
theorem witness_NotPerformedAccessesOnlySetBuserr :
    notPerformedCase ⟨.read, 0x00000, 3, 0⟩ State.reset ∧
    notPerformedCase ⟨.read, 0x00000, 1, 0⟩ State.reset ∧
    notPerformedCase ⟨.read, 0x0004E, 2, 0⟩ State.reset ∧
    notPerformedCase ⟨.read, 0x00050, 2, 0⟩ State.reset ∧
    notPerformedCase ⟨.write, 0x0000C, 2, 0⟩ (running 2 State.reset) ∧
    notPerformedCase ⟨.write, 0x0001C, 2, 0⟩ (running 2 State.reset) ∧
    notPerformedCase ⟨.write, 0x00000, 1, 5⟩ (running 2 State.reset) ∧
    ¬notPerformedCase ⟨.write, 0x00000, 2, 5⟩ (running 2 State.reset) ∧
    notPerformedCase ⟨.read, 0x10001, 1, 0⟩ State.reset ∧
    notPerformedCase ⟨.read, 0x10400, 0, 0⟩ { State.reset with bufsz := 0x400 } ∧
    notPerformedCase ⟨.read, 0x10000, 0, 0⟩ (running 2 State.reset) ∧
    ¬notPerformedCase ⟨.read, 0x0004C, 2, 0⟩ (running 2 State.reset) ∧
    ¬notPerformedCase ⟨.write, 0x00008, 2, 0⟩ (running 2 State.reset) ∧
    ¬notPerformedCase ⟨.write, 0x00020, 2, 0⟩ (running 2 State.reset) ∧
    ¬notPerformedCase ⟨.read, 0x103FF, 0, 0⟩ { State.reset with bufsz := 0x400 } := by
  refine ⟨?_, ?_, ?_, ?_, ?_, ?_, ?_, ?_, ?_, ?_, ?_, ?_, ?_, ?_, ?_⟩ <;> (unfold notPerformedCase; decide)

theorem witness_BusyInterlock : ∃ (s : State) (x : Txn), s.status.busy = true ∧ 0x10000 ≤ x.addr.toNat :=
  ⟨running 2 State.reset, Txn.readAt 0x10000 .w4, rfl, by decide⟩

/-- A transaction; the first and last address inside the window, and the one behind it. -/
theorem witness_HostAddressesReachTheBlockOnlyInsideItsWindow :
    (∃ (s : State) (x : Txn) (rest : List Event), s.rst = false ∧ s.inbox = .txn x :: rest) ∧
    (∃ (s : State) (a : Nat) (rest : List Event) (o : BitVec 17), s.rst = false ∧ s.inbox = .access a .read 2 0 :: rest ∧
      a = Config.blockBase + o.toNat ∧ o = 0) ∧
    (∃ (s : State) (a : Nat) (rest : List Event) (o : BitVec 17), s.rst = false ∧ s.inbox = .access a .read 2 0 :: rest ∧
      a = Config.blockBase + o.toNat ∧ o = 0x1FFFF) ∧
    (∃ (s : State) (a : Nat) (rest : List Event), s.rst = false ∧ s.inbox = .access a .read 2 0 :: rest ∧
      Config.blockBase + 0x20000 ≤ a) :=
  ⟨⟨ev (.txn (Txn.writeAt 0x10000 .w4 1)) State.reset, Txn.writeAt 0x10000 .w4 1, [], rfl, rfl⟩,
    ⟨ev (.access Config.blockBase .read 2 0) State.reset, Config.blockBase, [], 0, rfl, rfl, rfl, rfl⟩,
    ⟨ev (.access (Config.blockBase + 0x1FFFF) .read 2 0) State.reset, Config.blockBase + 0x1FFFF, [], 0x1FFFF, rfl, rfl, rfl,
      rfl⟩,
    ⟨ev (.access (Config.blockBase + 0x20000) .read 2 0) State.reset, Config.blockBase + 0x20000, [], rfl, rfl,
      Nat.le_refl _⟩⟩

/-- V33: an acknowledging write, a mask write and an acceptance meet the statement's conditions on w and s. -/
theorem witness_IrqFollowsDoneAndEnable :
    ∃ (s : State) (w : Word), s.irq = true ∧ s.status.busy = false ∧ w.getLsbD 1 = true ∧ w.getLsbD 0 = false :=
  ⟨{ State.reset with config := ⟨true⟩, status := ⟨false, true, .ok, false, false⟩ }, 2, rfl, rfl, rfl, rfl⟩

/-- OVERRUN and BUSERR cleared by a STATUS write; each set by an access. -/
theorem witness_StickyFlagsStayUntilCleared :
    (∃ s t : State, step s = .next t ∧ s.status.overrun = true ∧ t.status.overrun = false ∧
      s.status.buserr = true ∧ t.status.buserr = false) ∧
    (∃ s t : State, step s = .next t ∧ s.status.overrun = false ∧ t.status.overrun = true) ∧
    (∃ s t : State, step s = .next t ∧ s.status.buserr = false ∧ t.status.buserr = true) :=
  ⟨⟨ev (.txn (Txn.writeAt Reg.status.windowOffset .w4 0x302))
        { State.reset with status := ⟨false, true, .ok, true, true⟩ }, _, rfl, rfl, rfl, rfl, rfl⟩,
    ⟨ev (.txn (Txn.writeAt Reg.cmd.windowOffset .w4 0)) (running 2 State.reset), _, rfl, rfl, rfl⟩,
    ⟨ev (.txn (Txn.readAt 0x00050 .w4)) State.reset, _, rfl, rfl, rfl⟩⟩

theorem witness_StepStopsOnlyForATransactionDuringReset :
    ∃ (s : State) (x : Txn), s.rst = true ∧ s.nextTxn = some x :=
  ⟨ev (.txn (Txn.readAt 0x00004 .w4)) { State.reset with rst := true }, Txn.readAt 0x00004 .w4, rfl, rfl⟩

/-- A host that asserts rst, releases it, and then reads. -/
theorem witness_ObedientHostNeverStops : ∃ s : State, s.hostObeysReset = true ∧ s.inbox.length = 3 :=
  ⟨{ State.reset with inbox := [.rst true, .rst false, .txn (Txn.readAt 0x00004 .w4)] }, by decide, rfl⟩

theorem witness_StoredChecksumMakesTheSumZero :
    ∃ (pre post : List Byte) (c : Half), pre.length % 2 = 0 ∧ c = inetChecksum (pre ++ [0x00, 0x00] ++ post) ∧
      c = 0xEEFE :=
  ⟨[0x12, 0x00], [0x00, 0x00, 0x00, 0x00, 0xFF, 0xFF, 0xFF, 0x00], 0xEEFE, rfl, by decide +kernel, rfl⟩

/-- V21, its last row: two different payloads. -/
theorem witness_CongruentSumsAreNotDetected :
    (∃ s t : List Byte, inetSum s % 0xFFFF = inetSum t % 0xFFFF ∧ 0 < inetSum s ∧ 0 < inetSum t ∧ s ≠ t) ∧
    (∃ pre mid : List Byte, pre.length % 2 = 0 ∧ mid.length % 2 = 0) :=
  ⟨⟨[0xFF, 0xFF, 0xFF, 0x00], [0xFF, 0x00, 0xFF, 0xFF], by decide⟩, ⟨[], [], rfl, rfl⟩⟩

/-- Both segments end exactly at BUF_SIZE. -/
theorem witness_EncodedSegmentSumsToZero :
    (∃ s : State, s.base.toNat + 8 + s.len.toNat = s.bufsz.toNat) ∧ (∃ s : State, s.base.toNat + 12 = s.bufsz.toNat) :=
  ⟨⟨st 65528 0 0 [], by decide⟩, ⟨st 65524 0 0 [], by decide⟩⟩

/-- V24 (a). -/
theorem witness_ChecksumVerifiesAnIpv4Header :
    ∃ (s : State) (B H : Nat) (c : Half), B = s.base.toNat ∧ H = s.len.toNat ∧
      H = ((s.pbufByte B).toNat &&& 0x0F) * 4 ∧ 20 ≤ H ∧ B + H ≤ s.bufsz.toNat ∧
      c = inetChecksum (s.pbufBytes B 10 ++ [0x00, 0x00] ++ s.pbufBytes (B + 12) (H - 12)) ∧
      s.memRead (B + 10) 2 = c.toNat :=
  ⟨st 0 20 0 v10, 0, 20, 0x8D80, by decide +kernel⟩

theorem witness_DecodeInvertsEncode :
    ∃ (s t u : State) (B H P : Nat),
      s.base.toNat = B + H ∧ s.len.toNat = P ∧ B + H + 8 + P ≤ s.bufsz.toNat ∧ exec .encode s = .next t ∧
      20 ≤ H ∧ H = ((t.pbufByte B).toNat &&& 0x0F) * 4 ∧
      u.bufsz = s.bufsz ∧ u.base.toNat = B ∧ u.len.toNat = H + 8 + P ∧
      (∀ a, B ≤ a → a < B + H + 8 + P → u.pbufByte a = t.pbufByte a) :=
  ⟨enc, encoded, dec, 0, 20, 4, by decide, by decide, by decide, next_out (by decide +kernel), by decide,
    by decide +kernel, by decide +kernel, by decide +kernel, by decide +kernel, fun _ _ _ => rfl⟩

/-- V21, its first row: bit 0 of byte 31. -/
theorem witness_SingleBitErrorsAreDetected :
    ∃ (s t u : State) (B H P e k : Nat),
      s.base.toNat = B + H ∧ s.len.toNat = P ∧ B + H + 8 + P ≤ s.bufsz.toNat ∧ exec .encode s = .next t ∧
      20 ≤ H ∧ H = ((t.pbufByte B).toNat &&& 0x0F) * 4 ∧
      u.bufsz = s.bufsz ∧ u.base.toNat = B ∧ u.len.toNat = H + 8 + P ∧
      B + H ≤ e ∧ e < B + H + 8 + P ∧ k < 8 ∧
      (∀ a, B ≤ a → a < B + H + 8 + P → a ≠ e → u.pbufByte a = t.pbufByte a) ∧
      u.pbufByte e = t.pbufByte e ^^^ (1#8 <<< k) :=
  ⟨enc, encoded, decV21, 0, 20, 4, 31, 0, by decide, by decide, by decide, next_out (by decide +kernel), by decide,
    by decide +kernel, by decide +kernel, by decide +kernel, by decide +kernel, by decide, by decide, by decide, by
      have h : ∀ a, a < 32 → a ≠ 31 → decV21.pbufByte a = encoded.pbufByte a := by decide +kernel
      intro a _ h2 h3; exact h a h2 h3, by decide +kernel⟩

/-- The run in which the engine has every turn is weakly fair, from a BUSY block. -/
theorem witness_NoFairRunStaysBusy :
    ∃ (events : Nat → Event) (s : State), s.weaklyFair events ∧ s.rst = false ∧ (∀ n l, events n ≠ .rst l) ∧
      s.status.busy = true :=
  ⟨fun _ => .engine, running 2 decV10, fun n _ => ⟨n, Nat.le_refl n, rfl⟩, rfl, (fun _ _ => Event.noConfusion), rfl⟩

/-- `cmd NOP`, `wait`, `halt`, at the `wait` with the NOP running; host and engine take turns. -/
theorem witness_EveryWaitLoopEnds :
    ∃ (pre post : List HostOp) (l t : Nat) (r : HostRun) (schedule : Nat → Bool),
      r.prog = pre ++ HostOp.wait l t ++ post ∧ HostOp.label l ∉ pre ∧ r.pc = pre.length ∧ r.ipc.rst = false ∧
      r.Fair schedule ∧ r.ipc.status.busy = true :=
  ⟨HostOp.cmd .nop, [.halt], 0, 0, ⟨HostOp.cmd .nop ++ HostOp.wait 0 0 ++ [.halt], 1, [], running 0 State.reset⟩,
    fun k => k % 2 == 1, rfl, by decide, rfl, rfl,
    ⟨fun n _ => ⟨2 * n + 1, by omega, by simp⟩, fun n => ⟨2 * n, by omega, by simp⟩⟩, rfl⟩

end Sys2Proof.Tests
end

section
/-! SUPPORT. What a register write does: the fields of STATUS, CONFIG, TXH0 and TXH1 in the register's word, what a register
reads after a write to it or to another one, and what no write changes (10_state.md R24 to R31). -/

namespace Sys2Proof.Machine

/-! ## Fields of a word -/

/-- STATUS as a number (10_state.md R24). -/
theorem Status.word_toNat (st : Status) :
    st.word.toNat = st.buserr.toNat * 2 ^ 9 + st.overrun.toNat * 2 ^ 8 + st.result.bits.toNat * 2 ^ 4 +
      st.done.toNat * 2 + st.busy.toNat := by
  refine (toNat_concat _ (BitVec.ofBool st.busy)).trans ?_
  simp only [toNat_concat, BitVec.toNat_ofBool]
  simp; omega

/-- CONFIG as a number (10_state.md R25). -/
theorem ConfigReg.word_toNat (c : ConfigReg) : c.word.toNat = c.ie.toNat := by
  refine (toNat_concat (0 : BitVec 31) (BitVec.ofBool c.ie)).trans ?_
  simp

/-- A bit of a word, from the word as a number. -/
theorem getLsbD_eq_of_toNat {n i : Nat} {x : BitVec n} {b : Bool} (h : x.toNat / 2 ^ i % 2 = b.toNat) :
    x.getLsbD i = b := by
  rw [BitVec.getLsbD, Nat.testBit_eq_decide_div_mod_eq, h]
  cases b <;> rfl

/-- A field of a word, from the word as a number. -/
theorem extractLsb'_eq_of_toNat {n a m : Nat} {x : BitVec n} {y : BitVec m} (h : x.toNat / 2 ^ a % 2 ^ m = y.toNat) :
    x.extractLsb' a m = y := by
  apply BitVec.eq_of_toNat_eq
  rw [BitVec.extractLsb'_toNat, Nat.shiftRight_eq_div_pow, h]

/-- STATUS holds each flag in its bit, RESULT in bits 7:4 and 0 in every other bit (10_state.md R24). -/
theorem Status.word_fields (st : Status) :
    st.word.getLsbD 0 = st.busy ∧ st.word.getLsbD 1 = st.done ∧ st.word.extractLsb' 2 2 = 0 ∧
    st.word.extractLsb' 4 4 = st.result.bits ∧ st.word.getLsbD 8 = st.overrun ∧ st.word.getLsbD 9 = st.buserr ∧
    st.word.extractLsb' 10 22 = 0 := by
  have hw := st.word_toNat
  have hr := st.result.bits.isLt
  have hb := st.busy.toNat_lt
  have hd := st.done.toNat_lt
  have ho := st.overrun.toNat_lt
  have he := st.buserr.toNat_lt
  have h2 : (0 : BitVec 2).toNat = 0 := rfl
  have h22 : (0 : BitVec 22).toNat = 0 := rfl
  refine ⟨getLsbD_eq_of_toNat ?_, getLsbD_eq_of_toNat ?_, extractLsb'_eq_of_toNat ?_, extractLsb'_eq_of_toNat ?_,
    getLsbD_eq_of_toNat ?_, getLsbD_eq_of_toNat ?_, extractLsb'_eq_of_toNat ?_⟩ <;> omega

theorem Txh0.word_typ (t : Txh0) : t.word.extractLsb' 24 8 = t.typ :=
  (BitVec.extractLsb'_append_eq_of_le (by decide)).trans BitVec.extractLsb'_append_eq_left

theorem Txh0.word_code (t : Txh0) : t.word.extractLsb' 16 8 = t.code :=
  (BitVec.extractLsb'_append_eq_of_le (by decide)).trans BitVec.extractLsb'_append_eq_right

theorem Txh1.word_id (t : Txh1) : t.word.extractLsb' 16 16 = t.id := BitVec.extractLsb'_append_eq_left

theorem Txh1.word_seq (t : Txh1) : t.word.extractLsb' 0 16 = t.seq := BitVec.extractLsb'_append_eq_right

/-- CONFIG keeps bit 0 of what is written (10_state.md R25). -/
theorem ConfigReg.word_ofWord (w : Word) : (ConfigReg.ofWord w).word = w &&& 0x00000001 := by
  apply BitVec.eq_of_toNat_eq
  rw [ConfigReg.word_toNat]
  rcases Nat.mod_two_eq_zero_or_one w.toNat with h | h <;>
    simp [ConfigReg.ofWord, Nat.and_one_is_mod, BitVec.getLsbD, Nat.testBit_zero, h]

/-- TXH0 keeps bits 31:16 of what is written (10_state.md R29). -/
theorem Txh0.word_ofWord (w : Word) : (Txh0.ofWord w).word = w &&& 0xFFFF0000 := by
  calc (Txh0.ofWord w).word
    _ = w.extractLsb' 16 16 ++ 0#16 :=
      congrArg (· ++ 0#16) (BitVec.extractLsb'_append_extractLsb'_eq_extractLsb' (start₁ := 16) (len₁ := 8) rfl)
    _ = (w.extractLsb' 16 16 ++ w.extractLsb' 0 16) &&& (BitVec.allOnes 16 ++ 0#16) := by
      rw [BitVec.and_append, BitVec.and_allOnes, BitVec.and_zero]
    _ = w &&& 0xFFFF0000 :=
      congrArg (· &&& (0xFFFF0000 : Word)) (BitVec.extractLsb'_append_extractLsb' (w := 16) (len := 16) (x := w))

/-- TXH1 keeps all bits of what is written (10_state.md R30). -/
theorem Txh1.word_ofWord (w : Word) : (Txh1.ofWord w).word = w :=
  BitVec.extractLsb'_append_extractLsb' (w := 16) (len := 16) (x := w)

/-! ## Writes to registers -/

/-- While the engine is IDLE, an operand write is performed (10_state.md R26). -/
theorem State.operandWrite_of_idle {s : State} (hb : s.status.busy = false) (t : State) : s.operandWrite t = t := by
  simp [State.operandWrite, hb]

/-- A write to a read-only register is ignored (10_state.md R22). -/
theorem State.writeReg_of_isReadOnly {r : Reg} (hr : r.isReadOnly = true) (w : Word) (s : State) :
    s.writeReg r w = s := by
  cases r <;> cases hr <;> rfl

/-- What each register reads after a write to CONFIG. -/
theorem State.readReg_writeReg_config (s : State) (w : Word) (r : Reg) :
    (s.writeReg .config w).readReg r = if r = .config then w &&& 0x00000001 else s.readReg r := by
  cases r
  case config => exact ConfigReg.word_ofWord w
  all_goals rfl

/-- What each register reads after a write to an operand register of an IDLE block. -/
theorem State.readReg_writeReg_operand {s : State} (hb : s.status.busy = false) {q : Reg} (hq : q.isOperand = true)
    (w : Word) (r : Reg) :
    (s.writeReg q w).readReg r =
      if r = q then (if q = .txh0 then w &&& 0xFFFF0000 else w) else s.readReg r := by
  cases q <;> cases hq <;> simp only [State.writeReg, State.operandWrite_of_idle hb]
  case txh0 =>
    cases r
    case txh0 => exact Txh0.word_ofWord w
    all_goals rfl
  case txh1 =>
    cases r
    case txh1 => exact Txh1.word_ofWord w
    all_goals rfl
  all_goals (cases r <;> rfl)

/-- A register write changes nothing but the eight registers that the host can write. -/
@[simp] theorem State.writeReg_frame (r : Reg) (w : Word) (s : State) :
    (s.writeReg r w).csum = s.csum ∧ (s.writeReg r w).rx = s.rx ∧ (s.writeReg r w).bufsz = s.bufsz ∧
    (s.writeReg r w).pbuf = s.pbuf ∧ (s.writeReg r w).epoch = s.epoch ∧ (s.writeReg r w).rst = s.rst ∧
    (s.writeReg r w).inbox = s.inbox ∧ (s.writeReg r w).rdata = s.rdata := by
  cases hr : r.isReadOnly with
  | true => simp [State.writeReg_of_isReadOnly hr]
  | false =>
    cases hb : s.status.busy <;> cases r <;> cases hr <;> simp [State.writeReg, State.operandWrite, hb]

/-- What a register write can do to STATUS. -/
theorem State.writeReg_status_cases (r : Reg) (w : Word) (s : State) :
    (s.writeReg r w).status = s.status ∨
    (r = .cmd ∧ s.status.busy = false ∧ (s.writeReg r w).status = s.status.accepted) ∨
    (r = .cmd ∧ s.status.busy = true ∧ (s.writeReg r w).status = s.status.overran) ∨
    (r = .status ∧ (s.writeReg r w).status = s.status.written w) ∨
    (r.isOperand = true ∧ s.status.busy = true ∧ (s.writeReg r w).status = s.status.busErred) := by
  cases hb : s.status.busy <;> cases r <;>
    simp [State.writeReg, State.operandWrite, hb, Reg.isOperand]

end Sys2Proof.Machine
end

section
/-! SUPPORT. What every step keeps of BUF_SIZE, CSUM and the invariant, each said first of the operations that a step is made
of. -/

namespace Sys2Proof.Machine

/-! ## What a command can do -/

/-- A command only completes, or it fits and commits: ENCODE and ENCODE_AM write bytes inside the buffer and CSUM, PACK
writes bytes inside the buffer, CHECKSUM writes CSUM, DECODE writes the ten decode result registers. -/
theorem exec_cases {i : Instr} {s t : State} (h : exec i s = .next t) :
    (∃ code, t = s.complete code) ∨
    ((i = .encode ∨ i = .encodeAm) ∧ ∃ bs c, s.opBase + bs.length ≤ s.bufSize ∧
      t = ((s.writeBytes s.opBase bs).setCsum c).complete .ok) ∨
    (i = .pack ∧ s.opBase + 12 ≤ s.bufSize ∧ t = (s.memWrite (s.opBase + 8) 4 s.opMask.toNat).complete .ok) ∨
    (i = .checksum ∧ ∃ c, t = (s.setCsum c).complete .ok) ∨
    (i = .decode ∧ s.decodeResult = .ok ∧ t = (s.setRx s.decodedRx).complete .ok) := by
  cases i with
  | nop => exact .inl ⟨_, execNop_cases h⟩
  | encode =>
    obtain ⟨-, rfl⟩ | ⟨hfit, c, -, rfl⟩ := execEncode_cases h
    · exact .inl ⟨_, rfl⟩
    · exact .inr (.inl ⟨.inl rfl, _, c, by simp [State.icmpHeader]; omega, rfl⟩)
  | decode =>
    obtain ⟨-, rfl⟩ | ⟨hok, rfl⟩ := execDecode_cases h
    · exact .inl ⟨_, rfl⟩
    · exact .inr (.inr (.inr (.inr ⟨rfl, hok, rfl⟩)))
  | checksum =>
    obtain ⟨-, rfl⟩ | ⟨-, rfl⟩ := execChecksum_cases h
    · exact .inl ⟨_, rfl⟩
    · exact .inr (.inr (.inr (.inl ⟨rfl, _, rfl⟩)))
  | pack =>
    obtain ⟨-, rfl⟩ | ⟨hfit, rfl⟩ := execPack_cases h
    · exact .inl ⟨_, rfl⟩
    · exact .inr (.inr (.inl ⟨rfl, hfit, rfl⟩))
  | encodeAm =>
    obtain ⟨-, rfl⟩ | ⟨hfit, c, -, rfl⟩ := execEncodeAm_cases h
    · exact .inl ⟨_, rfl⟩
    · exact .inr (.inl ⟨.inr rfl, _, c, by simpa [State.icmpHeader, maskPayload] using hfit, rfl⟩)

/-- The engine only completes the accepted word, or runs the command that the word decodes to (40_dispatch.md R114). -/
theorem engineCommand_next {s t : State} (h : engineCommand s = .next t) :
    (∃ code, t = s.complete code) ∨ ∃ i, decodeWord s.cmd = .ok i ∧ exec i s = .next t := by
  obtain ⟨i, hi, he⟩ | ⟨-, he⟩ := engineCommand_cases s
  · exact .inr ⟨i, hi, he ▸ h⟩
  · exact .inl ⟨.illegalOp, by rw [he] at h; cases h; rfl⟩

/-! ## BUF_SIZE -/

theorem exec_bufsz {i : Instr} {s t : State} (h : exec i s = .next t) : t.bufsz = s.bufsz := by
  obtain ⟨_, rfl⟩ | ⟨-, _, _, -, rfl⟩ | ⟨-, -, rfl⟩ | ⟨-, _, rfl⟩ | ⟨-, -, rfl⟩ := exec_cases h <;> rfl

theorem engineCommand_bufsz {s t : State} (h : engineCommand s = .next t) : t.bufsz = s.bufsz := by
  obtain ⟨_, rfl⟩ | ⟨i, -, hi⟩ := engineCommand_next h
  · rfl
  · exact exec_bufsz hi

@[simp] theorem State.transact_bufsz (x : Txn) (s : State) : (s.transact x).bufsz = s.bufsz := by
  obtain h | ⟨_, -, h⟩ | ⟨_, -, -, h⟩ | ⟨_, _, -, -, -, h⟩ := s.transact_cases x <;> simp [h]

@[simp] theorem State.drivePin_bufsz (l : Bool) (s : State) : (s.drivePin l).bufsz = s.bufsz := by
  obtain ⟨-, -, h⟩ | ⟨-, h⟩ := s.drivePin_cases l <;> simp [h]

/-- BUF_SIZE is the same in every state of a run (10_state.md R41). -/
theorem step_bufsz {s t : State} (h : step s = .next t) : t.bufsz = s.bufsz := by
  obtain ⟨_, rfl, ⟨-, -, -, hc⟩ | ⟨-, rfl⟩ | ⟨x, -, -, rfl⟩ | ⟨l, _, -, rfl⟩⟩ := step_cases h
  · exact (engineCommand_bufsz hc :)
  · rfl
  · simp
  · simp

/-! ## CSUM -/

/-- A command that changes CSUM is ENCODE, ENCODE_AM or CHECKSUM and completes with OK (10_state.md R32). -/
theorem exec_csum {i : Instr} {s t : State} (h : exec i s = .next t) (hne : t.csum ≠ s.csum) :
    t.status.result = .ok ∧ t.status.busy = false ∧ (i = .encode ∨ i = .encodeAm ∨ i = .checksum) := by
  obtain ⟨_, rfl⟩ | ⟨hi, _, _, -, rfl⟩ | ⟨-, -, rfl⟩ | ⟨hi, _, rfl⟩ | ⟨-, -, rfl⟩ := exec_cases h
  · exact absurd rfl hne
  · exact ⟨rfl, rfl, hi.imp_right .inl⟩
  · exact absurd rfl hne
  · exact ⟨rfl, rfl, .inr (.inr hi)⟩
  · exact absurd rfl hne

/-- The engine changes CSUM only by such a command. -/
theorem engineCommand_csum {s t : State} (h : engineCommand s = .next t) (hne : t.csum ≠ s.csum) :
    t.status.result = .ok ∧ t.status.busy = false ∧
      (decodeWord s.cmd = .ok .encode ∨ decodeWord s.cmd = .ok .encodeAm ∨ decodeWord s.cmd = .ok .checksum) := by
  obtain ⟨_, rfl⟩ | ⟨i, hw, hi⟩ := engineCommand_next h
  · exact absurd rfl hne
  · obtain ⟨hok, hb, hcmd⟩ := exec_csum hi hne
    refine ⟨hok, hb, ?_⟩
    obtain rfl | rfl | rfl := hcmd
    · exact .inl hw
    · exact .inr (.inl hw)
    · exact .inr (.inr hw)

@[simp] theorem State.transact_csum (x : Txn) (s : State) : (s.transact x).csum = s.csum := by
  obtain h | ⟨_, -, h⟩ | ⟨_, -, -, h⟩ | ⟨_, _, -, -, -, h⟩ := s.transact_cases x <;> simp [h]

/-! ## The invariant -/

/-- The invariant speaks of BUF_SIZE, PBUF, BUSY and DONE, and the decode result registers alone. -/
theorem State.Inv.of_eq {s t : State} (h : s.Inv) (hz : t.bufsz = s.bufsz) (hp : t.pbuf = s.pbuf) (hx : t.rx = s.rx)
    (hs : (t.status.busy && t.status.done) = false) : t.Inv := by
  obtain ⟨size, wf, inside, -, hlen, payload, cls⟩ := h
  have hz' : t.bufSize = s.bufSize := congrArg BitVec.toNat hz
  exact ⟨hz' ▸ size, hp ▸ wf, hz' ▸ hp ▸ inside, hs, hx ▸ hlen, by rw [hx, hz']; exact payload, hx ▸ cls⟩

theorem State.Inv.popped {s : State} (h : s.Inv) : s.popped.Inv := h.of_eq rfl rfl rfl h.busyDone

theorem State.Inv.setCsum {s : State} (h : s.Inv) (c : Half) : (s.setCsum c).Inv := h.of_eq rfl rfl rfl h.busyDone

theorem State.Inv.returnRead {s : State} (h : s.Inv) (v : Word) : (s.returnRead v).Inv :=
  h.of_eq rfl rfl rfl h.busyDone

theorem State.Inv.complete {s : State} (h : s.Inv) (code : ResultCode) : (s.complete code).Inv :=
  h.of_eq rfl rfl rfl rfl

theorem State.Inv.notPerformed {s : State} (h : s.Inv) (d : Dir) : (s.notPerformed d).Inv :=
  h.of_eq (by simp) (by simp) (by simp) (by simpa using h.busyDone)

/-- A register write keeps the invariant: the acceptance of a command clears DONE, every other write sets neither BUSY nor
DONE (10_state.md R24). -/
theorem State.Inv.writeReg {s : State} (h : s.Inv) (r : Reg) (w : Word) : (s.writeReg r w).Inv := by
  have hbd := h.busyDone
  refine h.of_eq (by simp) (by simp) (by simp) ?_
  obtain hs | ⟨-, -, hs⟩ | ⟨-, -, hs⟩ | ⟨-, hs⟩ | ⟨-, -, hs⟩ := s.writeReg_status_cases r w <;> rw [hs]
  · exact hbd
  · rfl
  · exact hbd
  · rw [Status.written_busy, Status.written_done, ← Bool.and_assoc, hbd, Bool.false_and]
  · exact hbd

/-- Bytes written inside the buffer keep the invariant (20_memory.md R60). -/
theorem State.Inv.writeBytes {s : State} (h : s.Inv) {a : Nat} {bs : List Byte} (ha : a + bs.length ≤ s.bufSize) :
    (s.writeBytes a bs).Inv where
  bufSize := h.bufSize
  pbufWf := Memory.wf_setBytes h.pbufWf a bs
  pbufInside := Memory.below_setBytes h.pbufInside ha
  busyDone := h.busyDone
  hlen := h.hlen
  payload := h.payload
  cls := h.cls

theorem State.Inv.memWrite {s : State} (h : s.Inv) {a n : Nat} (ha : a + n ≤ s.bufSize) (v : Nat) :
    (s.memWrite a n v).Inv :=
  h.writeBytes (by rwa [beBytes_length])

/-- HLEN of a decoded datagram is its H (42_decode.md R150). -/
theorem State.decodedRx_hlen (s : State) : s.decodedRx.ip0.hlen.toNat = s.datagramHlen := by
  have hle := s.datagramHlen_le
  exact Nat.mod_eq_of_lt (by omega)

/-- The payload of a datagram that passes the checks of DECODE ends where the datagram ends, inside PBUF
(42_decode.md R151). -/
theorem State.decodedRx_payload_le {s : State} (hok : s.decodeResult = .ok) :
    s.decodedRx.ploff.toNat + s.decodedRx.pllen.toNat ≤ s.bufSize := by
  obtain ⟨hfit, -, hlen, -⟩ := s.decodeResult_eq_ok_iff.mp hok
  calc s.decodedRx.ploff.toNat + s.decodedRx.pllen.toNat
    _ ≤ (s.segmentStart + 8) + s.payloadLen := Nat.add_le_add (Nat.mod_le _ _) (Nat.mod_le _ _)
    _ = s.opBase + s.opLen := by simp only [State.segmentStart, State.payloadLen, State.segmentLen]; omega
    _ ≤ s.bufSize := hfit

/-- A successful DECODE keeps the invariant. -/
theorem State.Inv.setRx_decodedRx {s : State} (h : s.Inv) (hok : s.decodeResult = .ok) :
    (s.setRx s.decodedRx).Inv where
  bufSize := h.bufSize
  pbufWf := h.pbufWf
  pbufInside := h.pbufInside
  busyDone := h.busyDone
  hlen := s.decodedRx_hlen
  payload := State.decodedRx_payload_le hok
  cls := .inr rfl

theorem State.Inv.released {s : State} (h : s.Inv) : s.released.Inv where
  bufSize := h.bufSize
  pbufWf := rfl
  pbufInside := rfl
  busyDone := rfl
  hlen := by rw [State.released_rx]; decide
  payload := Nat.zero_le _
  cls := .inl rfl

theorem State.Inv.exec {i : Instr} {s t : State} (h : s.Inv) (he : exec i s = .next t) : t.Inv := by
  obtain ⟨_, rfl⟩ | ⟨-, _, _, hfit, rfl⟩ | ⟨-, hfit, rfl⟩ | ⟨-, _, rfl⟩ | ⟨-, hok, rfl⟩ := exec_cases he
  · exact h.complete _
  · exact ((h.writeBytes hfit).setCsum _).complete _
  · exact (h.memWrite (by omega) _).complete _
  · exact (h.setCsum _).complete _
  · exact (h.setRx_decodedRx hok).complete _

theorem State.Inv.engineCommand {s t : State} (h : s.Inv) (he : engineCommand s = .next t) : t.Inv := by
  obtain ⟨_, rfl⟩ | ⟨_, -, hi⟩ := engineCommand_next he
  · exact h.complete _
  · exact h.exec hi

theorem State.Inv.transact {s : State} (h : s.Inv) (x : Txn) : (s.transact x).Inv := by
  obtain ht | ⟨v, -, ht⟩ | ⟨r, -, -, ht⟩ | ⟨i, n, -, hfit, -, ht⟩ := s.transact_cases x <;> rw [ht]
  · exact h.notPerformed _
  · exact h.returnRead v
  · exact h.writeReg r _
  · exact h.memWrite hfit _

theorem State.Inv.drivePin {s : State} (h : s.Inv) (l : Bool) : (s.drivePin l).Inv := by
  obtain ⟨-, -, hp⟩ | ⟨-, hp⟩ := s.drivePin_cases l <;> rw [hp]
  · exact h.released
  · exact h.of_eq rfl rfl rfl h.busyDone

theorem State.Inv.step {s t : State} (h : s.Inv) (hs : step s = .next t) : t.Inv := by
  obtain ⟨_, rfl, ⟨-, -, -, hc⟩ | ⟨-, rfl⟩ | ⟨x, -, -, rfl⟩ | ⟨l, _, -, rfl⟩⟩ := step_cases hs
  · exact h.popped.engineCommand hc
  · exact h.popped
  · exact h.popped.transact x
  · exact h.popped.drivePin l

end Sys2Proof.Machine
end

section
/-! The obligations on the state (10_state.md). -/

namespace Sys2Proof.Machine

/-- Settles O6: each operation that a step is made of keeps the invariant. -/
theorem everyStepKeepsTheInvariant : Obligations.EveryStepKeepsTheInvariant := fun _ _ h hs => h.step hs

/-- Settles O7: no operation that a step is made of writes BUF_SIZE, release of reset included. -/
theorem bufszIsConstant : Obligations.BufszIsConstant := by
  refine ⟨fun s t h => ?_, fun s => ⟨zext17_toNat s.bufsz, BitVec.extractLsb'_append_eq_left⟩, by decide, fun s w => ?_⟩
  · simp only [State.readReg, step_bufsz h]
  · rw [State.transact_writeReg, State.writeReg_of_isReadOnly rfl]

/-- Settles O34: of what a step can be, only the completion of one of the three commands and the release of reset write
CSUM. -/
theorem csumChangesOnlyAtASuccessfulChecksumCommand : Obligations.CsumChangesOnlyAtASuccessfulChecksumCommand := by
  refine ⟨fun s t h hne => ?_, fun s => BitVec.extractLsb'_append_eq_left⟩
  obtain ⟨_, rfl, ⟨-, hb, -, hc⟩ | ⟨-, rfl⟩ | ⟨x, -, -, rfl⟩ | ⟨l, rest, hi, rfl⟩⟩ := step_cases h
  · exact .inl ⟨hb, (engineCommand_csum hc hne :)⟩
  · exact absurd rfl hne
  · exact absurd (State.transact_csum x s.popped) hne
  · obtain ⟨hr, rfl, -⟩ | ⟨-, hp⟩ := s.popped.drivePin_cases l
    · exact .inr ⟨hr, rest, hi⟩
    · exact absurd (congrArg State.csum hp) hne

/-- A flag with a write-one-to-clear bit (10_state.md R24). -/
theorem and_not_eq_ite (b c : Bool) : (b && !c) = if c then false else b := by
  cases c <;> simp

/-- Settles O37: the fields of the word as a number, and a write as what it does to each flag. -/
theorem statusFieldsAndWriteOneToClear : Obligations.StatusFieldsAndWriteOneToClear := by
  refine ⟨fun s => s.status.word_fields, fun s w => ?_⟩
  rw [State.transact_writeReg]
  simp only [State.writeReg, Status.written, and_not_eq_ite]

/-- Settles O38: a write sets the register's fields, and each register's word is read back from its fields. -/
theorem writableRegistersReadBack : Obligations.WritableRegistersReadBack := by
  intro s w
  simp only [State.transact_writeReg]
  refine ⟨rfl, fun hb => ?_, ⟨s.txh0.word_typ, s.txh0.word_code, s.txh1.word_id, s.txh1.word_seq⟩,
    s.readReg_writeReg_config w, fun hb q hq r => State.readReg_writeReg_operand hb ?_ w r⟩
  · simp only [State.writeReg, State.operandWrite_of_idle hb, Txh0.ofWord, Txh1.ofWord, and_self]
  · obtain rfl | rfl | rfl | rfl | rfl := hq <;> rfl

/-- Settles O39: the twelve are read-only registers. -/
theorem readOnlyRegistersIgnoreWrites : Obligations.ReadOnlyRegistersIgnoreWrites := by
  intro s w r hr
  have hro : ∀ r ∈ [Reg.csum, .rxIp0, .rxIp1, .rxSrc, .rxDst, .rxIc0, .rxIc1, .rxPloff, .rxPllen, .rxMask, .rxClass,
      .bufsz], r.isReadOnly = true := by decide
  rw [State.transact_writeReg, State.writeReg_of_isReadOnly (hro r hr)]

end Sys2Proof.Machine
end

section
/-! SUPPORT. MemRead and MemWrite as numbers (20_memory.md R62, R70), and which bytes a write can change. -/

namespace Sys2Proof.Machine

/-- One byte more, at the end of the range, is one digit more, the least significant one. -/
theorem State.memRead_succ (s : State) (a n : Nat) :
    s.memRead a (n + 1) = s.memRead a n * 256 + (s.pbufByte (a + n)).toNat := by
  simp [State.memRead, State.pbufBytes, beValue, List.range_succ]

theorem State.memRead_lt (s : State) (a n : Nat) : s.memRead a n < 256 ^ n := by
  induction n with
  | zero => exact Nat.one_pos
  | succ n ih =>
    rw [State.memRead_succ, Nat.pow_succ]
    have hb := (s.pbufByte (a + n)).isLt
    omega

/-- MemRead as the sum of its bytes, each at its place in base 256 (20_memory.md R62). -/
theorem State.memRead_eq_sum (s : State) (a n : Nat) :
    s.memRead a n =
      ((List.range n).map fun k => (s.pbufByte (a + k)).toNat * 256 ^ (n - 1 - k)).sum := by
  induction n with
  | zero => rfl
  | succ n ih =>
    have hshift : ∀ k ∈ List.range n, (s.pbufByte (a + k)).toNat * 256 ^ (n + 1 - 1 - k) =
        (s.pbufByte (a + k)).toNat * 256 ^ (n - 1 - k) * 256 := by
      intro k hk
      rw [List.mem_range] at hk
      rw [Nat.mul_assoc, ← Nat.pow_succ, show n + 1 - 1 - k = n - 1 - k + 1 by omega]
    rw [State.memRead_succ, ih, List.range_succ, List.map_append, List.sum_append, List.map_congr_left hshift,
      List.sum_map_mul_right]
    simp

/-- A byte inside the range of a MemWrite (20_memory.md R62). -/
theorem State.memWrite_pbufByte {a n v k : Nat} (s : State) (hk : k < n) :
    (s.memWrite a n v).pbufByte (a + k) = BitVec.ofNat 8 (v >>> (8 * (n - 1 - k))) := by
  simp [State.memWrite, State.writeBytes_pbufByte, hk]

theorem State.memWrite_pbufByte_outside {a n v i : Nat} {s : State} (h : i < a ∨ a + n ≤ i) :
    (s.memWrite a n v).pbufByte i = s.pbufByte i :=
  State.writeBytes_pbufByte_outside (by rwa [beBytes_length])

/-- A MemRead of n bytes inside the range of a MemWrite of m bytes returns the n bytes of the value at its place
(20_memory.md R71). -/
theorem State.memRead_memWrite {a m v k n : Nat} (s : State) (h : k + n ≤ m) :
    (s.memWrite a m v).memRead (a + k) n = v >>> (8 * (m - (k + n))) % 256 ^ n := by
  induction n with
  | zero => exact (Nat.mod_one _).symm
  | succ n ih =>
    have hplace : v >>> (8 * (m - (k + n))) = v >>> (8 * (m - (k + (n + 1)))) / 256 := by
      rw [show 8 * (m - (k + n)) = 8 * (m - (k + (n + 1))) + 8 by omega, Nat.shiftRight_add,
        Nat.shiftRight_eq_div_pow _ 8]
    have hbyte := s.memWrite_pbufByte (a := a) (v := v) (show k + n < m by omega)
    rw [State.memRead_succ, ih (by omega), Nat.add_assoc, hbyte, BitVec.toNat_ofNat, hplace, pow_succ' 256 n,
      Nat.mod_mul, show m - 1 - (k + n) = m - (k + (n + 1)) by omega]
    omega

/-- A byte that a write changes is one of those it writes. -/
theorem State.mem_range_of_writeBytes_ne {a i : Nat} {bs : List Byte} {s : State}
    (h : (s.writeBytes a bs).pbufByte i ≠ s.pbufByte i) : a ≤ i ∧ i < a + bs.length := by
  by_contra hout
  exact h (State.writeBytes_pbufByte_outside (by omega))

end Sys2Proof.Machine
end

section
/-! SUPPORT. The host window: which transactions are performed (20_memory.md R64 to R69), what each then does, and how an event
reaches the block (20_memory.md R61). -/

namespace Sys2Proof.Machine

/-! ## Widths and offsets -/

theorem Width.ofCode_eq_none_iff {c : BitVec 2} : Width.ofCode c = none ↔ c = 3 := by
  revert c; decide

theorem Width.eq_code_of_ofCode {c : BitVec 2} {n : Width} (h : Width.ofCode c = some n) : c = n.code := by
  revert c; cases n <;> decide

/-- The number of bytes as the width code gives it (20_memory.md R80). -/
theorem Width.two_pow_code (n : Width) : 2 ^ n.code.toNat = n.bytes := by cases n <;> rfl

theorem Width.bytes_le_four (n : Width) : n.bytes ≤ 4 := by cases n <;> decide

theorem Reg.eq_offset_of_ofOffset {o : Nat} {r : Reg} (h : Reg.ofOffset o = some r) : o = r.offset := by
  unfold Reg.ofOffset at h
  split at h <;> cases h <;> rfl

/-- Every multiple of 4 up to 0x4C is a register's offset (10_state.md R22). -/
theorem Reg.unmapped_of_ofOffset {o : Nat} (h : Reg.ofOffset o = none) : o % 4 ≠ 0 ∨ 0x4C < o := by
  have hmapped : ∀ k < 20, Reg.ofOffset (4 * k) ≠ none := by decide
  by_contra hin
  exact hmapped (o / 4) (by omega) (by rwa [show 4 * (o / 4) = o by omega])

/-- The operand registers stand at 0x0C to 0x1C (10_state.md R22, R26). -/
theorem Reg.isOperand_iff_offset (r : Reg) : r.isOperand = true ↔ 0x0C ≤ r.offset ∧ r.offset ≤ 0x1C := by
  cases r <;> decide

theorem Reg.offset_mapped (r : Reg) : r.offset % 4 = 0 ∧ r.offset ≤ 0x4C := by cases r <;> decide

/-! ## A transaction, by its window -/

/-- A transaction that is not performed, as the update it is (20_memory.md R68). -/
theorem State.notPerformed_eq (d : Dir) (s : State) :
    s.notPerformed d =
      { s with status := { s.status with buserr := true }, rdata := if d = .read then 0 else s.rdata } := by
  cases d <;> rfl

theorem State.transact_of_lt {x : Txn} {n : Width} (s : State) (hz : x.size = n.code) (ha : x.addr.toNat < 0x10000) :
    s.transact x = s.registerTxn x.addr.toNat n x.dir x.wdata := by
  simp [State.transact, hz, ha]

theorem State.transact_of_ge {x : Txn} {n : Width} (s : State) (hz : x.size = n.code) (ha : 0x10000 ≤ x.addr.toNat) :
    s.transact x = s.pbufTxn (x.addr.toNat - 0x10000) n x.dir x.wdata := by
  simp [State.transact, hz, Nat.not_lt.mpr ha]

theorem State.pbufPerformed_iff (i : Nat) (n : Width) (s : State) :
    s.pbufPerformed i n = true ↔ i % n.bytes = 0 ∧ i + n.bytes ≤ s.bufSize ∧ s.status.busy = false := by
  simp [State.pbufPerformed, and_assoc]

/-- While BUSY, a write to an operand register is not performed (20_memory.md R69). -/
theorem State.writeReg_operand_of_busy {s : State} (hb : s.status.busy = true) {r : Reg} (hr : r.isOperand = true)
    (w : Word) : s.writeReg r w = s.notPerformed .write := by
  cases r <;> cases hr <;> simp [State.writeReg, State.operandWrite, hb]

/-! ## Which transactions are performed -/

/-- A 4-byte access at a register's offset is not performed exactly when it is a write to an operand register while BUSY. -/
theorem notPerformedCase_register_iff {x : Txn} {r : Reg} (s : State) (hz : x.size = 2)
    (ho : x.addr.toNat = r.offset) :
    notPerformedCase x s ↔ s.status.busy = true ∧ x.dir = .write ∧ r.isOperand = true := by
  obtain ⟨h4, hmax⟩ := r.offset_mapped
  simp [notPerformedCase, hz, ho, h4, Reg.isOperand_iff_offset, show r.offset < 65536 by omega,
    show ¬ 76 < r.offset by omega, show ¬ 65536 ≤ r.offset by omega]

theorem notPerformedCase_pbuf_iff {x : Txn} {n : Width} (s : State) (hz : x.size = n.code)
    (ha : 0x10000 ≤ x.addr.toNat) :
    notPerformedCase x s ↔ s.pbufPerformed (x.addr.toNat - 0x10000) n = false := by
  have hvalid : n.code ≠ 3#2 := by cases n <;> decide
  rw [← Bool.not_eq_true, State.pbufPerformed_iff, not_and_or, not_and_or, Nat.not_le, Bool.not_eq_false]
  simp [notPerformedCase, hz, hvalid, Width.two_pow_code, Nat.not_lt.mpr ha, ha, State.bufSize]

/-- A transaction in the register window. -/
theorem State.transact_register_cases {x : Txn} {n : Width} (s : State) (hz : x.size = n.code)
    (ha : x.addr.toNat < 0x10000) :
    (notPerformedCase x s ∧ s.transact x = s.notPerformed x.dir) ∨
    (¬notPerformedCase x s ∧
      ((∃ v, s.transact x = s.returnRead v) ∨
       (∃ r, (s.status.busy && r.isOperand) = false ∧ s.transact x = s.writeReg r x.wdata))) := by
  rw [s.transact_of_lt hz ha]
  cases hr : Reg.ofOffset x.addr.toNat with
  | none =>
    refine .inl ⟨.inr (.inl ⟨ha, .inr ?_⟩), by cases n <;> simp [State.registerTxn, hr]⟩
    exact (Reg.unmapped_of_ofOffset hr).imp_right .inl
  | some r =>
    cases n with
    | w1 => exact .inl ⟨.inr (.inl ⟨ha, .inl (by rw [hz]; decide)⟩), rfl⟩
    | w2 => exact .inl ⟨.inr (.inl ⟨ha, .inl (by rw [hz]; decide)⟩), rfl⟩
    | w4 =>
      rw [notPerformedCase_register_iff s hz (Reg.eq_offset_of_ofOffset hr)]
      simp only [State.registerTxn, hr]
      cases x.dir with
      | read => exact .inr ⟨by simp, .inl ⟨_, rfl⟩⟩
      | write =>
        cases hbo : s.status.busy && r.isOperand with
        | false => exact .inr ⟨by simpa using hbo, .inr ⟨r, hbo, rfl⟩⟩
        | true =>
          obtain ⟨hb, ho⟩ := Bool.and_eq_true_iff.mp hbo
          exact .inl ⟨⟨hb, rfl, ho⟩, State.writeReg_operand_of_busy hb ho _⟩

/-- A transaction in the PBUF window. -/
theorem State.transact_pbuf_cases {x : Txn} {n : Width} (s : State) (hz : x.size = n.code)
    (ha : 0x10000 ≤ x.addr.toNat) :
    (notPerformedCase x s ∧ s.transact x = s.notPerformed x.dir) ∨
    (¬notPerformedCase x s ∧
      ((∃ v, s.transact x = s.returnRead v) ∨ (∃ i m, s.transact x = s.memWrite i m x.wdata.toNat))) := by
  rw [s.transact_of_ge hz ha, notPerformedCase_pbuf_iff s hz ha]
  unfold State.pbufTxn
  cases hp : s.pbufPerformed (x.addr.toNat - 0x10000) n with
  | false => exact .inl ⟨rfl, rfl⟩
  | true =>
    refine .inr ⟨by simp, ?_⟩
    cases x.dir with
    | read => exact .inl ⟨_, rfl⟩
    | write => exact .inr ⟨_, _, rfl⟩

/-- A transaction is not performed exactly in the cases of 20_memory.md R68; a performed one reads, writes a register that is
no operand register of a BUSY block, or writes PBUF. -/
theorem State.transact_performed_cases (x : Txn) (s : State) :
    (notPerformedCase x s ∧ s.transact x = s.notPerformed x.dir) ∨
    (¬notPerformedCase x s ∧
      ((∃ v, s.transact x = s.returnRead v) ∨
       (∃ r, (s.status.busy && r.isOperand) = false ∧ s.transact x = s.writeReg r x.wdata) ∨
       (∃ i m, s.transact x = s.memWrite i m x.wdata.toNat))) := by
  cases hw : Width.ofCode x.size with
  | none => exact .inl ⟨.inl (Width.ofCode_eq_none_iff.mp hw), by simp [State.transact, hw]⟩
  | some n =>
    have hz := Width.eq_code_of_ofCode hw
    obtain ha | ha := Nat.lt_or_ge x.addr.toNat 0x10000
    · obtain h | ⟨hn, h | h⟩ := s.transact_register_cases hz ha
      · exact .inl h
      · exact .inr ⟨hn, .inl h⟩
      · exact .inr ⟨hn, .inr (.inl h)⟩
    · obtain h | ⟨hn, h | h⟩ := s.transact_pbuf_cases hz ha
      · exact .inl h
      · exact .inr ⟨hn, .inl h⟩
      · exact .inr ⟨hn, .inr (.inr h)⟩

theorem State.transact_of_notPerformedCase {x : Txn} {s : State} (h : notPerformedCase x s) :
    s.transact x = s.notPerformed x.dir := by
  obtain ⟨-, ht⟩ | ⟨hn, -⟩ := s.transact_performed_cases x
  · exact ht
  · exact absurd h hn

/-- A register write sets BUSERR only at an operand register of a BUSY block. -/
theorem State.buserr_of_writeReg {s : State} {r : Reg} {w : Word} (hbo : (s.status.busy && r.isOperand) = false)
    (h : (s.writeReg r w).status.buserr = true) : s.status.buserr = true := by
  obtain hs | ⟨-, -, hs⟩ | ⟨-, -, hs⟩ | ⟨-, hs⟩ | ⟨ho, hb, -⟩ := s.writeReg_status_cases r w
  · rwa [hs] at h
  · rwa [hs] at h
  · rwa [hs] at h
  · rw [hs, Status.written_buserr, Bool.and_eq_true] at h
    exact h.1
  · simp [ho, hb] at hbo

/-- A performed transaction does not set BUSERR. -/
theorem State.buserr_of_performed {x : Txn} {s : State} (hn : ¬notPerformedCase x s)
    (h : (s.transact x).status.buserr = true) : s.status.buserr = true := by
  obtain ⟨hc, -⟩ | ⟨-, ⟨v, ht⟩ | ⟨r, hbo, ht⟩ | ⟨i, m, ht⟩⟩ := s.transact_performed_cases x
  · exact absurd hc hn
  · rwa [ht] at h
  · exact State.buserr_of_writeReg hbo (ht ▸ h)
  · rwa [ht] at h

/-! ## Performed accesses to PBUF -/

section
variable {s : State} {i : BitVec 16} {n : Width} (hb : s.status.busy = false) (ha : i.toNat % n.bytes = 0)
  (hfit : i.toNat + n.bytes ≤ s.bufSize)
include hb ha hfit

/-- A performed PBUF read (20_memory.md R65). -/
theorem State.transact_readPbuf :
    s.transact (Txn.readAt (pbufOffset i) n) = s.returnRead (BitVec.ofNat 32 (s.memRead i.toNat n.bytes)) := by
  rw [s.transact_of_ge (n := n) rfl (by simp [Txn.readAt])]
  simp [Txn.readAt, State.pbufTxn, (s.pbufPerformed_iff _ _).mpr ⟨ha, hfit, hb⟩]

/-- A performed PBUF write (20_memory.md R66). -/
theorem State.transact_writePbuf (w : Word) :
    s.transact (Txn.writeAt (pbufOffset i) n w) = s.memWrite i.toNat n.bytes w.toNat := by
  rw [s.transact_of_ge (n := n) rfl (by simp [Txn.writeAt])]
  simp [Txn.writeAt, State.pbufTxn, (s.pbufPerformed_iff _ _).mpr ⟨ha, hfit, hb⟩]

end

/-- A read of any width at byte k of a word written before returns that part of the word (20_memory.md R71). -/
theorem State.rdata_readPbuf_writePbuf {s : State} {i j : BitVec 16} (v : Word) (k : Nat) (n : Width)
    (hb : s.status.busy = false) (hi : i.toNat % 4 = 0) (hfit : i.toNat + 4 ≤ s.bufSize)
    (hj : j.toNat = i.toNat + k) (hk : k % n.bytes = 0) (hkn : k + n.bytes ≤ 4) :
    ((s.transact (Txn.writeAt (pbufOffset i) .w4 v)).transact (Txn.readAt (pbufOffset j) n)).rdata =
      (v.extractLsb' (8 * (4 - (k + n.bytes))) (8 * n.bytes)).setWidth 32 := by
  have haligned : j.toNat % n.bytes = 0 := by
    have hdvd : n.bytes ∣ 4 := by cases n <;> decide
    rw [hj]
    exact Nat.mod_eq_zero_of_dvd
      (Nat.dvd_add (hdvd.trans (Nat.dvd_of_mod_eq_zero hi)) (Nat.dvd_of_mod_eq_zero hk))
  rw [State.transact_writePbuf (n := .w4) hb hi hfit,
    State.transact_readPbuf (s := s.memWrite _ _ _) hb haligned (by rw [State.memWrite_bufSize]; omega),
    State.returnRead_rdata, hj]
  apply BitVec.eq_of_toNat_eq
  rw [BitVec.toNat_ofNat, BitVec.toNat_setWidth, BitVec.extractLsb'_toNat]
  have hm := s.memRead_memWrite (a := i.toNat) (v := v.toNat) hkn
  rw [show (256 : Nat) = 2 ^ 8 from rfl, ← Nat.pow_mul] at hm
  exact congrArg (· % 2 ^ 32) hm

/-! ## How an event reaches the block -/

/-- The host's transaction is the step's effect while rst is released (20_memory.md R75). -/
theorem step_of_txn {s : State} {x : Txn} {rest : List Event} (hr : s.rst = false) (hi : s.inbox = .txn x :: rest) :
    step s = .next (State.transact x { s with inbox := rest }) := by
  simp [step, hi, handleEvent, hostTransaction, hr, State.popped]

theorem step_of_access {s : State} {a : Nat} {d : Dir} {z : BitVec 2} {w : Word} {x : Txn} {rest : List Event}
    (hr : s.rst = false) (hi : s.inbox = .access a d z w :: rest) (hw : windowTxn a d z w = some x) :
    step s = .next (State.transact x { s with inbox := rest }) := by
  simp [step, hi, handleEvent, hw, hostTransaction, hr, State.popped]

theorem step_of_access_outside {s : State} {a : Nat} {d : Dir} {z : BitVec 2} {w : Word} {rest : List Event}
    (hi : s.inbox = .access a d z w :: rest) (hw : windowTxn a d z w = none) :
    step s = .next { s with inbox := rest } := by
  simp [step, hi, handleEvent, hw, State.popped]

/-- A host address inside the window is the transaction at its offset (20_memory.md R61). -/
theorem windowTxn_base_add (o : BitVec 17) (d : Dir) (z : BitVec 2) (w : Word) :
    windowTxn (Config.blockBase + o.toNat) d z w = some ⟨d, o, z, w⟩ := by
  have ho := o.isLt
  simp [windowTxn, show o.toNat < 131072 by omega]

theorem windowTxn_outside {a : Nat} (h : a < Config.blockBase ∨ Config.blockBase + 0x20000 ≤ a) (d : Dir)
    (z : BitVec 2) (w : Word) : windowTxn a d z w = none :=
  if_neg (by omega)

end Sys2Proof.Machine
end

section
/-! The obligations on PBUF and the host window (20_memory.md). -/

namespace Sys2Proof.Machine

/-- Settles O35: of the six commands, those that complete with OK and write bytes write them from BASE up. -/
theorem commandsWriteOnlyTheirFootprint : Obligations.CommandsWriteOnlyTheirFootprint := by
  intro i s
  obtain ⟨t, ht⟩ := exec_answers_next i s
  refine ⟨t, ht, fun a hne => ?_⟩
  cases i with
  | nop =>
    obtain rfl := execNop_cases ht
    exact absurd rfl hne
  | encode =>
    obtain ⟨-, rfl⟩ | ⟨-, c, -, rfl⟩ := execEncode_cases ht
    · exact absurd rfl hne
    · obtain ⟨hlo, hhi⟩ := State.mem_range_of_writeBytes_ne (s := s) hne
      exact ⟨rfl, hlo, .inl ⟨rfl, Nat.lt_of_lt_of_le hhi (Nat.le_add_right _ _)⟩⟩
  | decode =>
    obtain ⟨-, rfl⟩ | ⟨-, rfl⟩ := execDecode_cases ht <;> exact absurd rfl hne
  | checksum =>
    obtain ⟨-, rfl⟩ | ⟨-, rfl⟩ := execChecksum_cases ht <;> exact absurd rfl hne
  | pack =>
    obtain ⟨-, rfl⟩ | ⟨-, rfl⟩ := execPack_cases ht
    · exact absurd rfl hne
    · obtain ⟨hlo, hhi⟩ := State.mem_range_of_writeBytes_ne (s := s) hne
      exact ⟨rfl, (Nat.le_add_right _ 8).trans hlo, .inr ⟨.inr rfl, hhi⟩⟩
  | encodeAm =>
    obtain ⟨-, rfl⟩ | ⟨-, c, -, rfl⟩ := execEncodeAm_cases ht
    · exact absurd rfl hne
    · obtain ⟨hlo, hhi⟩ := State.mem_range_of_writeBytes_ne (s := s) hne
      exact ⟨rfl, hlo, .inr ⟨.inl rfl, hhi⟩⟩

/-- Settles O40: the value read is MemRead, which fits a word at every width. -/
theorem pbufWindowReadReturnsBigEndianValue : Obligations.PbufWindowReadReturnsBigEndianValue := by
  intro s i n hb ha hfit
  refine ⟨_, State.transact_readPbuf hb ha hfit, ?_, rfl⟩
  have hlt : s.memRead i.toNat n.bytes < 2 ^ 32 :=
    (s.memRead_lt _ _).trans_le (Nat.pow_le_pow_right (n := 256) (by decide) n.bytes_le_four)
  rw [State.returnRead_rdata, BitVec.toNat_ofNat, Nat.mod_eq_of_lt hlt, State.memRead_eq_sum]

/-- Settles O41: the write is MemWrite, whose bytes are said inside and outside its range. -/
theorem pbufWindowWriteIsBigEndian : Obligations.PbufWindowWriteIsBigEndian := by
  intro s i n w hb ha hfit
  refine ⟨_, State.transact_writePbuf hb ha hfit w, fun k hk => ?_, fun a h => State.memWrite_pbufByte_outside h, rfl⟩
  rw [s.memWrite_pbufByte hk, BitVec.toNat_ofNat]
  exact (Nat.and_two_pow_sub_one_eq_mod _ 8).symm

/-- Settles O42: each read is at its byte k of the word, and i + 3 does not wrap, because i is a multiple of 4. -/
theorem mixedWidthReadsSeeTheSameBytes : Obligations.MixedWidthReadsSeeTheSameBytes := by
  rintro s i v hb hi hfit t rfl
  have hlt := i.isLt
  have h1 : (i + 1).toNat = i.toNat + 1 := by bv_omega
  have h2 : (i + 2).toNat = i.toNat + 2 := by bv_omega
  have h3 : (i + 3).toNat = i.toNat + 3 := by bv_omega
  refine ⟨State.rdata_readPbuf_writePbuf v 0 .w1 hb hi hfit rfl rfl (by decide),
    State.rdata_readPbuf_writePbuf v 1 .w1 hb hi hfit h1 rfl (by decide),
    State.rdata_readPbuf_writePbuf v 2 .w1 hb hi hfit h2 rfl (by decide),
    State.rdata_readPbuf_writePbuf v 3 .w1 hb hi hfit h3 rfl (by decide),
    State.rdata_readPbuf_writePbuf v 0 .w2 hb hi hfit rfl rfl (by decide),
    State.rdata_readPbuf_writePbuf v 2 .w2 hb hi hfit h2 rfl (by decide), ?_⟩
  calc _
    _ = (v.extractLsb' 0 32).setWidth 32 := State.rdata_readPbuf_writePbuf v 0 .w4 hb hi hfit rfl rfl (by decide)
    _ = v := by simp

/-- Settles O43: the listed cases are those in which the window does not perform a transaction. -/
theorem notPerformedAccessesOnlySetBuserr : Obligations.NotPerformedAccessesOnlySetBuserr := fun s x =>
  ⟨fun h => by rw [State.transact_of_notPerformedCase h, State.notPerformed_eq], State.buserr_of_performed⟩

/-- Settles O44: a PBUF access while BUSY is a not-performed case, and the rest is what a BUSY block's registers do. -/
theorem busyInterlock : Obligations.BusyInterlock := by
  intro s hb
  refine ⟨fun x ha => ?_, fun r w hr => ?_, fun w => ?_, fun w => ?_, fun w => ?_, fun r w hr => ?_, fun r => ?_⟩
  · rw [State.transact_of_notPerformedCase (.inr (.inr ⟨ha, .inr (.inr hb)⟩)), State.notPerformed_eq]
  · have ho : r.isOperand = true := by obtain rfl | rfl | rfl | rfl | rfl := hr <;> rfl
    rw [State.transact_writeReg, State.writeReg_operand_of_busy hb ho]
    rfl
  · rw [State.transact_writeReg]
    exact if_pos hb
  · exact State.transact_writeReg .config w s
  · exact ⟨s.status.written w, hb, rfl, rfl, rfl, rfl, State.transact_writeReg .status w s⟩
  · rw [State.transact_writeReg, State.writeReg_of_isReadOnly hr]
  · exact State.transact_readReg r s

/-- Settles O36: the transaction is the read at the register's offset, and no register's value depends on the events. -/
theorem registerReadsHaveNoSideEffect : Obligations.RegisterReadsHaveNoSideEffect := by
  have htable : ∀ p ∈ offsetTable, p.2.windowOffset = p.1 := by decide
  refine ⟨fun r => by cases r <;> decide, htable, fun s o r rest hmem hr hi => ?_⟩
  obtain rfl : r.windowOffset = o := htable _ hmem
  have hread : State.readReg r { s with inbox := rest } = s.readReg r := by cases r <;> rfl
  rw [step_of_txn hr hi]
  exact congrArg Host.Outcome.next ((State.transact_readReg r _).trans (by rw [hread]; rfl))

/-- Settles O45: a transaction takes its effect in its step, and the window's bounds decide which accesses are one. -/
theorem hostAddressesReachTheBlockOnlyInsideItsWindow :
    Obligations.HostAddressesReachTheBlockOnlyInsideItsWindow := by
  refine ⟨fun s x rest => step_of_txn, fun s a d z w rest hr hi => ⟨fun o ho => ?_, fun hout => ?_⟩⟩
  · subst ho
    exact step_of_access hr hi (windowTxn_base_add o d z w)
  · exact step_of_access_outside hi (windowTxn_outside hout d z w)

end Sys2Proof.Machine
end

section
/-! SUPPORT. The command word and the opcode map: a word is its two fields, and the decoder inverts the encoder field by
field (30_encoding.md R90 to R92). -/

namespace Sys2Proof

/-- Every command has the word form that Laws/PerInstr.lean says of each constructor. -/
theorem Laws.WordForm.statement (i : Instr) : Laws.WordForm.Statement i := by
  cases i with
  | nop => exact Laws.WordForm.nop
  | encode => exact Laws.WordForm.encode
  | decode => exact Laws.WordForm.decode
  | checksum => exact Laws.WordForm.checksum
  | pack => exact Laws.WordForm.pack
  | encodeAm => exact Laws.WordForm.encodeAm

/-- A command word is RSV followed by OP (30_encoding.md R90). -/
theorem cmdRsv_append_cmdOp (w : Word) : cmdRsv w ++ cmdOp w = w :=
  BitVec.extractLsb'_append_extractLsb' (w := 28) (len := 4) (x := w)

theorem cmdRsvZero_iff (w : Word) : cmdRsvZero w = true ↔ cmdRsv w = 0 := beq_iff_eq

theorem cmdOpDefined_iff (w : Word) : cmdOpDefined w = true ↔ (cmdOp w).toNat ≤ 5 := decide_eq_true_iff

/-- Every command's word has RSV = 0. -/
@[simp] theorem cmdRsv_encode (i : Instr) : cmdRsv (encode i) = 0 := by
  obtain ⟨-, hrsv, -⟩ := Laws.WordForm.statement i
  exact (cmdRsvZero_iff _).mp hrsv

/-- Every command's word has OP at most 5. -/
theorem cmdOp_encode_le (i : Instr) : (cmdOp (encode i)).toNat ≤ 5 := by
  obtain ⟨-, -, hop⟩ := Laws.WordForm.statement i
  exact (cmdOpDefined_iff _).mp hop

/-- The opcode map is a table of the commands' OP fields (30_encoding.md R91). -/
theorem decodeOp_eq_ok_iff (op : BitVec 4) (i : Instr) : decodeOp op = .ok i ↔ cmdOp (encode i) = op := by
  constructor
  · intro h
    unfold decodeOp at h
    split at h <;> cases h
    all_goals exact BitVec.eq_of_toNat_eq (Eq.symm ‹op.toNat = _›)
  · rintro rfl
    cases i <;> rfl

/-- Every opcode from 0 to 5 is a command's (30_encoding.md R91). -/
theorem exists_decodeOp_eq_ok {op : BitVec 4} (h : op.toNat ≤ 5) : ∃ i, decodeOp op = .ok i := by
  unfold decodeOp
  interval_cases op.toNat <;> exact ⟨_, rfl⟩

/-- The decoder checks RSV, then reads the opcode map (30_encoding.md R92). -/
theorem decodeWord_eq_ok_iff (w : Word) (i : Instr) :
    decodeWord w = .ok i ↔ cmdRsv w = 0 ∧ decodeOp (cmdOp w) = .ok i := by
  rw [← cmdRsvZero_iff]
  unfold decodeWord
  split <;> simp [*]

/-- A word decodes to a command exactly when it is that command's word: both fields agree. -/
theorem decodeWord_eq_ok_iff_encode (w : Word) (i : Instr) : decodeWord w = .ok i ↔ encode i = w := by
  rw [decodeWord_eq_ok_iff, decodeOp_eq_ok_iff]
  constructor
  · rintro ⟨hrsv, hop⟩
    calc encode i
      _ = cmdRsv (encode i) ++ cmdOp (encode i) := (cmdRsv_append_cmdOp _).symm
      _ = cmdRsv w ++ cmdOp w := by rw [cmdRsv_encode, hrsv, hop]
      _ = w := cmdRsv_append_cmdOp w
  · rintro rfl
    exact ⟨cmdRsv_encode i, rfl⟩

@[simp] theorem decodeWord_encode (i : Instr) : decodeWord (encode i) = .ok i :=
  (decodeWord_eq_ok_iff_encode _ i).mpr rfl

/-- The legal words of 30_encoding.md R92. -/
theorem exists_decodeWord_eq_ok_iff (w : Word) :
    (∃ i, decodeWord w = .ok i) ↔ cmdRsv w = 0 ∧ (cmdOp w).toNat ≤ 5 := by
  constructor
  · rintro ⟨i, hi⟩
    obtain rfl := (decodeWord_eq_ok_iff_encode w i).mp hi
    exact ⟨cmdRsv_encode i, cmdOp_encode_le i⟩
  · rintro ⟨hrsv, hop⟩
    obtain ⟨i, hi⟩ := exists_decodeOp_eq_ok hop
    exact ⟨i, (decodeWord_eq_ok_iff w i).mpr ⟨hrsv, hi⟩⟩

end Sys2Proof
end

section
/-! The obligations on the command encoding (30_encoding.md). -/

namespace Sys2Proof

/-- Settles O2: the legal words by their two fields, and the mask 0xFFFFFFFF of R92 keeps every bit. -/
theorem decodeIsTotalAndInvertsEncode : Obligations.DecodeIsTotalAndInvertsEncode := by
  refine ⟨exists_decodeWord_eq_ok_iff, decodeWord_eq_ok_iff_encode, fun w i hi => ?_⟩
  calc w &&& 0xFFFFFFFF
    _ = w := BitVec.and_allOnes
    _ = encode i := ((decodeWord_eq_ok_iff_encode w i).mp hi).symm

/-- Settles O1: each of the six words is its command's word. -/
theorem tableWordsDecode : Obligations.TableWordsDecode :=
  ⟨decodeWord_encode .nop, decodeWord_encode .encode, decodeWord_encode .decode, decodeWord_encode .checksum,
    decodeWord_encode .pack, decodeWord_encode .encodeAm⟩

end Sys2Proof
end

section
/-! SUPPORT. A command as its effect (40_dispatch.md R113 to R119): what it commits is a value computed from the operands and
PBUF, and the completion does nothing but commit that value. -/

namespace Sys2Proof.Machine

/-! ## The effect of a command -/

/-- What a completion commits: the result code, bytes from an index up, and new values of CSUM and the decode result
registers, if any. -/
structure Effect where
  code : ResultCode
  start : Nat := 0
  bytes : List Byte := []
  csum : Option Half := none
  rx : Option Rx := none

/-- The state after a completion that commits `e`. -/
def State.commit (e : Effect) (s : State) : State :=
  (((s.writeBytes e.start e.bytes).setCsum (e.csum.getD s.csum)).setRx (e.rx.getD s.rx)).complete e.code

/-- The effect of each command (41_encode.md R130, R134, R136, 42_decode.md R150, 43_checksum.md R185);
`exec_eq_commit` ties it to `exec`. -/
def State.effect (i : Instr) (s : State) : Effect :=
  match i with
  | .nop => { code := .ok }
  | .encode =>
    if s.bufSize < s.opBase + 8 + s.opLen then { code := .badLength }
    else
      let c := s.segmentChecksum s.encodePayload
      { code := .ok, start := s.opBase, bytes := s.icmpHeader c, csum := some c }
  | .decode =>
    { code := s.decodeResult, rx := if s.decodeResult = .ok then some s.decodedRx else none }
  | .checksum =>
    if s.bufSize < s.opBase + s.opLen then { code := .badLength }
    else { code := .ok, csum := some (inetChecksum (s.pbufBytes s.opBase s.opLen)) }
  | .pack =>
    if s.bufSize < s.opBase + 12 then { code := .badLength }
    else { code := .ok, start := s.opBase + 8, bytes := beBytes 4 s.opMask.toNat }
  | .encodeAm =>
    if s.bufSize < s.opBase + 12 then { code := .badLength }
    else
      let c := s.segmentChecksum (maskPayload s.opMask)
      { code := .ok, start := s.opBase, bytes := s.icmpHeader c ++ maskPayload s.opMask, csum := some c }

/-- A command commits its effect and does nothing else. -/
theorem exec_eq_commit (i : Instr) (s : State) : exec i s = .next (s.commit (s.effect i)) := by
  cases i with
  | nop => rfl
  | encode => simp only [exec, execEncode, State.effect]; split <;> rfl
  | decode => simp only [exec, execDecode_eq, State.effect]; split <;> rfl
  | checksum => simp only [exec, execChecksum, State.effect]; split <;> rfl
  | pack => simp only [exec, execPack, State.effect]; split <;> rfl
  | encodeAm => simp only [exec, execEncodeAm, State.effect]; split <;> rfl

/-- The effect of a command that fails is its result code (40_dispatch.md R116). -/
theorem State.effect_of_fails {i : Instr} {s : State} (h : (s.effect i).code ≠ .ok) :
    s.effect i = { code := (s.effect i).code } := by
  cases i with
  | nop => exact absurd rfl h
  | decode =>
    have hc : s.decodeResult ≠ .ok := h
    simp [State.effect, hc]
  | encode | checksum | pack | encodeAm =>
    simp only [State.effect] at h ⊢
    split at h
    · rw [if_pos ‹_›]
    · exact absurd rfl h

/-- The engine commits the effect of the accepted command or of ILLEGAL, and an effect that fails is its result code. -/
theorem engineCommand_commits (s : State) :
    ∃ e : Effect, engineCommand s = .next (s.commit e) ∧ (e.code ≠ .ok → e = { code := e.code }) := by
  obtain ⟨i, -, he⟩ | ⟨-, he⟩ := engineCommand_cases s
  · exact ⟨s.effect i, he.trans (exec_eq_commit i s), State.effect_of_fails⟩
  · exact ⟨{ code := .illegalOp }, he, fun _ => rfl⟩

/-- A PBUF byte after two states commit one effect: it is written, and the same in both, or unchanged in both. -/
theorem State.commit_pbufByte (e : Effect) (s s' : State) (a : Nat) :
    (s.commit e).pbufByte a = (s'.commit e).pbufByte a ∨
      ((s.commit e).pbufByte a = s.pbufByte a ∧ (s'.commit e).pbufByte a = s'.pbufByte a) := by
  simp only [State.commit, State.complete_pbufByte, State.setRx_pbufByte, State.setCsum_pbufByte,
    State.writeBytes_pbufByte]
  split
  · exact .inl rfl
  · exact .inr ⟨rfl, rfl⟩

/-- A register that is set to `o`, if there is such a value, in both of two states: the same in both, or unchanged in both. -/
theorem getD_eq_or_unchanged {α : Type} (o : Option α) (x y : α) :
    o.getD x = o.getD y ∨ (o.getD x = x ∧ o.getD y = y) := by
  cases o with
  | none => exact .inr ⟨rfl, rfl⟩
  | some v => exact .inl rfl

/-! ## What the effect depends on -/

/-- Two states with the same operand registers and the same BUF_SIZE (10_state.md R26). -/
structure SameOperands (s s' : State) : Prop where
  len : s.len = s'.len
  base : s.base = s'.base
  txh0 : s.txh0 = s'.txh0
  txh1 : s.txh1 = s'.txh1
  mask : s.mask = s'.mask
  bufsz : s.bufsz = s'.bufsz

section
variable {s s' : State} (h : SameOperands s s')
include h

theorem SameOperands.opLen : s.opLen = s'.opLen := congrArg BitVec.toNat h.len

theorem SameOperands.opBase : s.opBase = s'.opBase := congrArg BitVec.toNat h.base

theorem SameOperands.opMask : s.opMask = s'.opMask := h.mask

theorem SameOperands.bufSize : s.bufSize = s'.bufSize := congrArg BitVec.toNat h.bufsz

theorem SameOperands.icmpHeader (c : Half) : s.icmpHeader c = s'.icmpHeader c := by
  simp [State.icmpHeader, State.opType, State.opCode, State.opId, State.opSeq, h.txh0, h.txh1]

theorem SameOperands.segmentChecksum (pl : List Byte) : s.segmentChecksum pl = s'.segmentChecksum pl := by
  simp only [State.segmentChecksum, h.icmpHeader]

end

section
variable {s s' : State} (h : SameOperands s s')
  (hread : ∀ a, s.opBase ≤ a → a < s.opBase + s.opLen → s.pbufByte a = s'.pbufByte a)
include h hread

/-- H depends on the first byte of the datagram. -/
theorem SameOperands.datagramHlen (hlen : 20 ≤ s.opLen) : s.datagramHlen = s'.datagramHlen := by
  rw [State.datagramHlen, hread s.opBase le_rfl (by omega), h.opBase, State.datagramHlen]

theorem SameOperands.segmentStart (hlen : 20 ≤ s.opLen) : s.segmentStart = s'.segmentStart := by
  simp only [State.segmentStart, h.opBase, h.datagramHlen hread hlen]

theorem SameOperands.segmentLen (hlen : 20 ≤ s.opLen) : s.segmentLen = s'.segmentLen := by
  simp only [State.segmentLen, h.opLen, h.datagramHlen hread hlen]

theorem SameOperands.payloadLen (hlen : 20 ≤ s.opLen) : s.payloadLen = s'.payloadLen := by
  simp only [State.payloadLen, h.segmentLen hread hlen]

/-! The segment lies inside the datagram once the checks of length have passed (42_decode.md R161). -/

variable (hlen : 20 ≤ s.opLen) (hseg : s.datagramHlen + 8 ≤ s.opLen)
include hlen hseg

theorem SameOperands.storedChecksum : s.storedChecksum = s'.storedChecksum := by
  have hg : s.segmentStart = s.opBase + s.datagramHlen := rfl
  simp only [State.storedChecksum, ← h.segmentStart hread hlen]
  rw [State.memRead_congr fun i _ _ => hread i (by omega) (by omega)]

theorem SameOperands.calcChecksum : s.calcChecksum = s'.calcChecksum := by
  have hg : s.segmentStart = s.opBase + s.datagramHlen := rfl
  have hl : s.segmentLen = s.opLen - s.datagramHlen := rfl
  have hinside : ∀ i, s.segmentStart ≤ i → i < s.segmentStart + s.segmentLen → s.pbufByte i = s'.pbufByte i :=
    fun i hlo hhi => hread i (by omega) (by omega)
  simp only [State.calcChecksum, State.zeroedSegment, ← h.segmentStart hread hlen, ← h.segmentLen hread hlen]
  rw [State.pbufBytes_congr (s := s) (s' := s') (a := s.segmentStart) fun i _ _ => hinside i (by omega) (by omega),
    State.pbufBytes_congr (s := s) (s' := s') (a := s.segmentStart + 4) fun i _ _ => hinside i (by omega) (by omega)]

theorem SameOperands.unpackMask : s.unpackMask = s'.unpackMask := by
  have hg : s.segmentStart = s.opBase + s.datagramHlen := rfl
  have hp : s.payloadLen = s.opLen - s.datagramHlen - 8 := rfl
  simp only [State.unpackMask, ← h.segmentStart hread hlen, ← h.payloadLen hread hlen]
  congr 1
  refine List.map_congr_left fun k _ => ?_
  split
  · exact hread _ (by omega) (by omega)
  · rfl

theorem SameOperands.decodedRx : s.decodedRx = s'.decodedRx := by
  have hg : s.segmentStart = s.opBase + s.datagramHlen := rfl
  have hm : ∀ a n, s.opBase ≤ a → a + n ≤ s.opBase + s.opLen → s.memRead a n = s'.memRead a n :=
    fun a n _ _ => State.memRead_congr fun i _ _ => hread i (by omega) (by omega)
  simp only [State.decodedRx, ← h.opBase, ← h.segmentStart hread hlen, ← h.datagramHlen hread hlen,
    ← h.payloadLen hread hlen, ← h.storedChecksum hread hlen hseg, ← h.unpackMask hread hlen hseg]
  simp (disch := omega) only [hread, hm]

end

/-- The result code of DECODE depends on the datagram alone: each check reads inside what the checks before it allow. -/
theorem SameOperands.decodeResult {s s' : State} (h : SameOperands s s')
    (hread : ∀ a, s.opBase ≤ a → a < s.opBase + s.opLen → s.pbufByte a = s'.pbufByte a) :
    s.decodeResult = s'.decodeResult := by
  simp only [State.decodeResult, ← h.bufSize, ← h.opBase, ← h.opLen]
  by_cases hlen : 20 ≤ s.opLen
  · rw [← h.datagramHlen hread hlen]
    by_cases hseg : s.datagramHlen + 8 ≤ s.opLen
    · rw [h.calcChecksum hread hlen hseg, h.storedChecksum hread hlen hseg]
    · simp only [Nat.not_le.mp hseg, if_true]
  · simp only [Nat.not_le.mp hlen, if_true]

/-- The effect of a command depends on its operands and the bytes it may read alone (40_dispatch.md R119). -/
theorem State.effect_congr {i : Instr} {s s' : State} (h : SameOperands s s')
    (hread : ∀ a, mayRead i s a → s.pbufByte a = s'.pbufByte a) : s.effect i = s'.effect i := by
  cases i with
  | nop => rfl
  | encode =>
    have hpl : s.encodePayload = s'.encodePayload := by
      simp only [State.encodePayload, ← h.opBase, ← h.opLen]
      exact State.pbufBytes_congr fun a hlo hhi => hread a ⟨hlo, hhi⟩
    simp only [State.effect, h.bufSize, h.opBase, h.opLen, h.icmpHeader, h.segmentChecksum, hpl]
  | decode =>
    have hdatagram : ∀ a, s.opBase ≤ a → a < s.opBase + s.opLen → s.pbufByte a = s'.pbufByte a :=
      fun a hlo hhi => hread a ⟨hlo, hhi⟩
    simp only [State.effect, ← h.decodeResult hdatagram]
    split
    · obtain ⟨-, hlen, hseg, -⟩ := s.decodeResult_eq_ok_iff.mp ‹_›
      rw [h.decodedRx hdatagram hlen hseg]
    · rfl
  | checksum =>
    have hrange : s.pbufBytes s.opBase s.opLen = s'.pbufBytes s.opBase s.opLen :=
      State.pbufBytes_congr fun a hlo hhi => hread a ⟨hlo, hhi⟩
    simp only [State.effect, hrange, ← h.bufSize, ← h.opBase, ← h.opLen]
  | pack => simp only [State.effect, h.bufSize, h.opBase, h.opMask]
  | encodeAm => simp only [State.effect, h.bufSize, h.opBase, h.opMask, h.icmpHeader, h.segmentChecksum]

end Sys2Proof.Machine
end

section
/-! SUPPORT. The life cycle of a command (40_dispatch.md R110 to R113): the engine's turn, the acceptance, and what a step can
do to BUSY, CMD, DONE and RESULT. -/

namespace Sys2Proof.Machine

/-! ## The engine's turn -/

/-- With no event left, a step is the engine's turn. -/
theorem step_of_nil {s : State} (hi : s.inbox = []) : step s = engineTurn s := by
  simp [step, hi]

/-- The engine's turn as the next event. -/
theorem step_of_engine {s : State} {rest : List Event} (hi : s.inbox = .engine :: rest) :
    step s = engineTurn { s with inbox := rest } := by
  simp [step, hi, handleEvent, State.popped]

/-- A BUSY engine whose rst is released completes the command in CMD (40_dispatch.md R113). -/
theorem engineTurn_of_busy {s : State} (hr : s.rst = false) (hb : s.status.busy = true) :
    engineTurn s = engineCommand s := by
  simp [engineTurn, State.completionEnabled, hr, hb]

/-- The engine's turn of an IDLE block, or of one whose rst is asserted, changes nothing. -/
theorem engineTurn_of_disabled {s : State} (h : s.status.busy = false ∨ s.rst = true) : engineTurn s = .next s := by
  obtain h | h := h <;> simp [engineTurn, State.completionEnabled, h]

/-- The command that it runs is the one that CMD decodes to (40_dispatch.md R114). -/
theorem engineTurn_of_decodes {s : State} {i : Instr} (hr : s.rst = false) (hb : s.status.busy = true)
    (hw : decodeWord s.cmd = .ok i) : engineTurn s = exec i s := by
  rw [engineTurn_of_busy hr hb]
  simp [engineCommand, hw]

/-- The engine completes a word that is no command with ILLEGAL_OP (40_dispatch.md R115). -/
theorem engineCommand_of_illegal {s : State} (h : ¬∃ i, decodeWord s.cmd = .ok i) :
    engineCommand s = .next (s.complete .illegalOp) := by
  obtain ⟨i, hi, -⟩ | ⟨-, he⟩ := engineCommand_cases s
  · exact absurd ⟨i, hi⟩ h
  · exact he

/-! ## A write to CMD -/

/-- A write to CMD of an IDLE block is the acceptance of a command (40_dispatch.md R111). -/
theorem State.writeReg_cmd_of_idle {s : State} (hb : s.status.busy = false) (w : Word) :
    s.writeReg .cmd w = s.accept w := by
  simp [State.writeReg, hb]

/-- A write to CMD of a BUSY block only sets OVERRUN (40_dispatch.md R112). -/
theorem State.writeReg_cmd_of_busy {s : State} (hb : s.status.busy = true) (w : Word) :
    s.writeReg .cmd w = { s with status := s.status.overran } := by
  simp [State.writeReg, hb]

/-- A write to another register leaves CMD alone. -/
theorem State.writeReg_cmd_of_ne {r : Reg} (hr : r ≠ .cmd) (w : Word) (s : State) : (s.writeReg r w).cmd = s.cmd := by
  cases r with
  | cmd => exact absurd rfl hr
  | len | base | txh0 | txh1 | mask =>
    simp only [State.writeReg, State.operandWrite]
    split <;> simp
  | _ => rfl

/-! ## What a step does to the running command -/

/-- From `s` to `t` the engine has neither accepted nor completed a command: BUSY, CMD and RESULT are the same, and DONE has
not risen. -/
structure SameCommand (s t : State) : Prop where
  busy : t.status.busy = s.status.busy
  cmd : t.cmd = s.cmd
  result : t.status.result = s.status.result
  done : t.status.done = true → s.status.done = true

/-- A register write accepts a command, or leaves the engine with the command it has. -/
theorem State.writeReg_accept_or_sameCommand (r : Reg) (w : Word) (s : State) :
    (r = .cmd ∧ s.status.busy = false ∧ s.writeReg r w = s.accept w) ∨ SameCommand s (s.writeReg r w) := by
  by_cases hr : r = .cmd
  · subst hr
    cases hb : s.status.busy with
    | false => exact .inl ⟨rfl, rfl, State.writeReg_cmd_of_idle hb w⟩
    | true => exact .inr (State.writeReg_cmd_of_busy hb w ▸ ⟨rfl, rfl, rfl, id⟩)
  · have hc := State.writeReg_cmd_of_ne hr w s
    right
    obtain hs | ⟨hcmd, -, -⟩ | ⟨hcmd, -, -⟩ | ⟨-, hs⟩ | ⟨-, -, hs⟩ := s.writeReg_status_cases r w
    · exact ⟨by rw [hs], hc, by rw [hs], by rw [hs]; exact id⟩
    · exact absurd hcmd hr
    · exact absurd hcmd hr
    · exact ⟨by rw [hs]; rfl, hc, by rw [hs]; rfl, by rw [hs]; simp +contextual⟩
    · exact ⟨by rw [hs]; rfl, hc, by rw [hs]; rfl, by rw [hs]; exact id⟩

/-- A transaction accepts a command, or leaves the engine with the command it has. -/
theorem State.transact_accept_or_sameCommand (x : Txn) (s : State) :
    (s.status.busy = false ∧ x.dir = .write ∧ x.addr = Reg.cmd.windowOffset ∧ s.transact x = s.accept x.wdata) ∨
    SameCommand s (s.transact x) := by
  obtain ht | ⟨v, -, ht⟩ | ⟨r, hd, ha, ht⟩ | ⟨i, n, -, -, -, ht⟩ := s.transact_cases x <;> rw [ht]
  · exact .inr ⟨by simp, by simp, by simp, by simp⟩
  · exact .inr ⟨rfl, rfl, rfl, id⟩
  · obtain ⟨rfl, hb, hw⟩ | hsame := s.writeReg_accept_or_sameCommand r x.wdata
    · exact .inl ⟨hb, hd, ha, hw⟩
    · exact .inr hsame
  · exact .inr ⟨rfl, rfl, rfl, id⟩

/-- A step completes the command of a BUSY engine, releases rst, accepts a command for an IDLE engine, or leaves the engine
with the command it has (40_dispatch.md R110, R118). -/
theorem step_lifeCycle_cases {s t : State} (h : step s = .next t) :
    (s.status.busy = true ∧ engineCommand s.popped = .next t) ∨
    ((s.rst = true ∧ ∃ rest, s.inbox = .rst false :: rest) ∧ t = s.popped.released) ∨
    (s.status.busy = false ∧ ∃ x, s.nextTxn = some x ∧ x.dir = .write ∧ x.addr = Reg.cmd.windowOffset ∧
      t = s.popped.accept x.wdata) ∨
    SameCommand s t := by
  obtain ⟨_, rfl, ⟨-, hb, -, hc⟩ | ⟨-, rfl⟩ | ⟨x, hx, -, rfl⟩ | ⟨l, rest, hi, rfl⟩⟩ := step_cases h
  · exact .inl ⟨hb, hc⟩
  · exact .inr (.inr (.inr ⟨rfl, rfl, rfl, id⟩))
  · obtain ⟨hb, hd, ha, ht⟩ | ⟨hb, hc, hr, hd⟩ := s.popped.transact_accept_or_sameCommand x
    · exact .inr (.inr (.inl ⟨hb, x, hx, hd, ha, ht⟩))
    · exact .inr (.inr (.inr ⟨hb, hc, hr, hd⟩))
  · obtain ⟨hr, rfl, ht⟩ | ⟨-, ht⟩ := s.popped.drivePin_cases l
    · exact .inr (.inl ⟨⟨hr, rest, hi⟩, ht⟩)
    · exact .inr (.inr (.inr (ht ▸ ⟨rfl, rfl, rfl, id⟩)))

end Sys2Proof.Machine
end

section
/-! The obligations on the command life cycle (40_dispatch.md). -/

namespace Sys2Proof.Machine

/-- Settles O12: of what a step can do to the engine, only the acceptance raises BUSY, and only the completion and the
release of rst clear it. -/
theorem engineChangesStateOnlyByItsLifeCycle : Obligations.EngineChangesStateOnlyByItsLifeCycle := by
  refine ⟨fun s t h hs ht => ?_, fun s t h hs ht => ?_, rfl⟩
  · obtain ⟨hb, -⟩ | ⟨-, rfl⟩ | ⟨-, x, hx, hd, ha, rfl⟩ | hsame := step_lifeCycle_cases h
    · simp [hs] at hb
    · cases ht
    · exact ⟨x, hx, hd, ha, rfl, rfl⟩
    · simp [hsame.busy, hs] at ht
  · obtain ⟨-, hc⟩ | ⟨hr, -⟩ | ⟨hb, -⟩ | hsame := step_lifeCycle_cases h
    · exact .inl hc
    · exact .inr hr
    · simp [hs] at hb
    · simp [hsame.busy, hs] at ht

/-- Settles O13: a BUSY engine accepts nothing. -/
theorem runningCommandIsNeverCancelledByTheHost : Obligations.RunningCommandIsNeverCancelledByTheHost := by
  intro s t h hs
  obtain ⟨-, hc⟩ | ⟨hr, -⟩ | ⟨hb, -⟩ | hsame := step_lifeCycle_cases h
  · exact .inr (.inl hc)
  · exact .inr (.inr hr)
  · simp [hs] at hb
  · exact .inl ⟨hsame.busy.trans hs, hsame.cmd⟩

/-- Settles O14: the release of rst and the acceptance clear DONE, and the acceptance keeps RESULT. -/
theorem doneRisesOnlyAtACompletion : Obligations.DoneRisesOnlyAtACompletion := by
  intro s t h
  obtain hc | ⟨hr, rfl⟩ | ⟨-, x, -, -, -, rfl⟩ | hsame := step_lifeCycle_cases h
  · exact ⟨fun _ _ => hc, fun _ => .inl hc⟩
  · exact ⟨(nomatch ·), fun _ => .inr hr⟩
  · exact ⟨fun ht => absurd ht (by simp), fun hne => absurd rfl hne⟩
  · exact ⟨fun ht hs => absurd (hsame.done ht) (by simp [hs]), fun hne => absurd hsame.result hne⟩

/-- Settles O16: what the completion commits has the code that RESULT then shows. -/
theorem failureIsAllOrNothing : Obligations.FailureIsAllOrNothing := by
  intro s t h hne
  obtain ⟨e, he, hfail⟩ := engineCommand_commits s
  obtain rfl : s.commit e = t := Host.Outcome.next.inj (he.symm.trans h)
  rw [hfail hne]
  rfl

/-- Settles O17: what a completion commits has a part for PBUF, CSUM, the RX_ registers and RESULT only. -/
theorem completionLeavesHostRegistersAlone : Obligations.CompletionLeavesHostRegistersAlone := by
  intro s
  obtain ⟨e, he, -⟩ := engineCommand_commits s
  exact ⟨s.commit e, he, rfl, rfl, rfl⟩

/-- Settles O18: the two states commit one effect. -/
theorem execDependsOnlyOnItsOperands : Obligations.ExecDependsOnlyOnItsOperands := by
  intro i s s' hlen hbase htxh0 htxh1 hmask hbufsz hread
  have heffect : s.effect i = s'.effect i := State.effect_congr ⟨hlen, hbase, htxh0, htxh1, hmask, hbufsz⟩ hread
  exact ⟨s.commit (s.effect i), s'.commit (s.effect i), exec_eq_commit i s, heffect ▸ exec_eq_commit i s', rfl,
    State.commit_pbufByte _ s s', getD_eq_or_unchanged _ _ _, getD_eq_or_unchanged _ _ _⟩

/-- Settles O8: the engine's turn, with no event left or as the next event. -/
theorem stepRunsTheAcceptedCommand : Obligations.StepRunsTheAcceptedCommand := by
  refine ⟨fun s i hr hb hw => ⟨fun hi => ?_, fun rest hi => ?_⟩, fun s hoff => ⟨fun hi => ?_, fun rest hi => ?_⟩⟩
  · rw [step_of_nil hi, engineTurn_of_decodes hr hb hw]
  · rw [step_of_engine hi, engineTurn_of_decodes (s := { s with inbox := rest }) hr hb hw]
  · rw [step_of_nil hi, engineTurn_of_disabled hoff]
  · rw [step_of_engine hi, engineTurn_of_disabled (s := { s with inbox := rest }) hoff]

/-- Settles O9: a word with RSV not 0 or OP above 5 is no command's word. -/
theorem illegalWordCompletesWithIllegalOp : Obligations.IllegalWordCompletesWithIllegalOp := by
  intro s hw
  have hillegal : ¬∃ i, decodeWord s.cmd = .ok i := by
    rw [exists_decodeWord_eq_ok_iff]
    rintro ⟨hrsv, hop⟩
    exact hw.elim (· hrsv) (fun h6 => absurd (h6.trans hop) (by decide))
  have hc := engineCommand_of_illegal hillegal
  exact ⟨hc, fun hr hb hi => by rw [step_of_nil hi, engineTurn_of_busy hr hb, hc]; rfl⟩

/-- Settles O10: the write is the acceptance, and CMD is held whole. -/
theorem cmdWriteWhileIdleIsAccepted : Obligations.CmdWriteWhileIdleIsAccepted := by
  intro s w rest hr hb hi
  refine ⟨_, ?_, rfl, rfl⟩
  rw [step_of_txn hr hi, State.transact_writeReg, State.writeReg_cmd_of_idle (s := { s with inbox := rest }) hb]
  rfl

/-- Settles O11: the write sets OVERRUN and nothing else. -/
theorem cmdWriteWhileBusyOnlySetsOverrun : Obligations.CmdWriteWhileBusyOnlySetsOverrun := by
  intro s w rest hr hb hi
  rw [step_of_txn hr hi, State.transact_writeReg, State.writeReg_cmd_of_busy (s := { s with inbox := rest }) hb]
  rfl

/-- Settles O21: NOP is the completion with OK. -/
theorem nopOnlyCompletesWithOk : Obligations.NopOnlyCompletesWithOk := fun s => exec_eq_commit .nop s

end Sys2Proof.Machine
end

section
/-! SUPPORT. A checksum that is stored in the sequence it was computed over (43_checksum.md R184, R187). -/

namespace Sys2Proof.Machine

/-- The fold keeps the value modulo 0xFFFF (43_checksum.md R184). -/
theorem fold16_mod (S : Nat) : fold16 S % 65535 = S % 65535 := by
  induction S using Nat.strong_induction_on with
  | _ S ih =>
    rw [fold16_eq]
    split
    · rw [ih _ (fold16_pass_lt ‹_›), fold16_pass_mod]
    · rfl

/-- The fold of a value that is not 0 is not 0 (43_checksum.md R184). -/
theorem fold16_pos {S : Nat} (h : 0 < S) : 0 < fold16 S := by
  induction S using Nat.strong_induction_on with
  | _ S ih =>
    rw [fold16_eq]
    split
    · exact ih _ (fold16_pass_lt ‹_›) (by rw [fold16_pass_eq]; omega)
    · exact h

/-- Of the values that are 0 modulo 0xFFFF, all but 0 fold to 0xFFFF. -/
theorem fold16_of_mod_eq_zero {S : Nat} (h : 0 < S) (hm : S % 65535 = 0) : fold16 S = 0xFFFF := by
  have hmod := fold16_mod S
  have hpos := fold16_pos h
  have hle := fold16_le S
  omega

/-- The two bytes of a 16-bit value, the high-order one first (30_encoding.md R95). -/
theorem hiByte_mul_add_loByte (c : Half) : (hiByte c).toNat * 256 + (loByte c).toNat = c.toNat := by
  have hc := c.isLt
  simp only [hiByte, loByte, BitVec.extractLsb'_toNat, Nat.shiftRight_eq_div_pow]
  omega

/-- A 16-bit field at an even offset adds its value to the sum (43_checksum.md R182). -/
theorem inetSum_field {pre : List Byte} (hpre : pre.length % 2 = 0) (c : Half) (post : List Byte) :
    inetSum (pre ++ [hiByte c, loByte c] ++ post) = inetSum (pre ++ [0x00, 0x00] ++ post) + c.toNat := by
  have hzero : (0x00 : Byte).toNat = 0 := rfl
  have hfield := hiByte_mul_add_loByte c
  simp only [List.append_assoc, inetSum_append hpre, List.cons_append, List.nil_append, inetSum_cons_cons]
  omega

/-- A field at an even offset that holds the checksum computed over it as zero makes the checksum 0x0000
(43_checksum.md R187): the sum then is a multiple of 0xFFFF, and not 0, because the checksum of a zero sum is 0xFFFF. -/
theorem inetChecksum_stored {pre : List Byte} (hpre : pre.length % 2 = 0) {c : Half} {post : List Byte}
    (hc : c = inetChecksum (pre ++ [0x00, 0x00] ++ post)) :
    inetChecksum (pre ++ [hiByte c, loByte c] ++ post) = 0x0000 := by
  have hvalue : c.toNat = 0xFFFF - fold16 (inetSum (pre ++ [0x00, 0x00] ++ post)) := by rw [hc, inetChecksum_toNat]
  have hsum := inetSum_field hpre c post
  generalize inetSum (pre ++ [0x00, 0x00] ++ post) = S at hvalue hsum
  have hmod := fold16_mod S
  have hle := fold16_le S
  have hfold_zero : S = 0 → fold16 S = 0 := by rintro rfl; rfl
  have hfull : fold16 (inetSum (pre ++ [hiByte c, loByte c] ++ post)) = 0xFFFF :=
    fold16_of_mod_eq_zero (by omega) (by omega)
  apply BitVec.eq_of_toNat_eq
  rw [inetChecksum_toNat, hfull]
  rfl

end Sys2Proof.Machine
end

section
/-! SUPPORT. The encode family (41_encode.md): the commands that fail their check, and what PBUF holds after a header or
a payload was written. -/

namespace Sys2Proof.Machine

/-! ## Failing the check -/

theorem execEncode_of_not_fits {s : State} (h : s.bufSize < s.opBase + 8 + s.opLen) :
    execEncode s = .next (s.complete .badLength) :=
  if_pos h

theorem execPack_of_not_fits {s : State} (h : s.bufSize < s.opBase + 12) :
    execPack s = .next (s.complete .badLength) :=
  if_pos h

theorem execEncodeAm_of_not_fits {s : State} (h : s.bufSize < s.opBase + 12) :
    execEncodeAm s = .next (s.complete .badLength) :=
  if_pos h

/-! ## Writing bytes and completing -/

/-- A completion with OK that writes bytes writes these bytes, RESULT, BUSY and DONE (40_dispatch.md R113). -/
theorem State.writeBytes_complete {a : Nat} {bs : List Byte} {s t : State} (ht : t = (s.writeBytes a bs).complete .ok) :
    t.pbufBytes a bs.length = bs ∧
    (∀ i, i < a ∨ a + bs.length ≤ i → t.pbufByte i = s.pbufByte i) ∧
    t.status = { s.status with busy := false, done := true, result := .ok } ∧
    { t with pbuf := s.pbuf, status := s.status } = s := by
  subst ht
  exact ⟨s.writeBytes_pbufBytes a bs, fun _ hout => State.writeBytes_pbufByte_outside (s := s) hout, rfl, rfl⟩

/-- A completion with OK that writes bytes and CSUM writes these, RESULT, BUSY and DONE (40_dispatch.md R113). -/
theorem State.writeBytes_setCsum_complete {a : Nat} {bs : List Byte} {c : Half} {s t : State}
    (ht : t = ((s.writeBytes a bs).setCsum c).complete .ok) :
    t.pbufBytes a bs.length = bs ∧
    (∀ i, i < a ∨ a + bs.length ≤ i → t.pbufByte i = s.pbufByte i) ∧
    t.readReg .csum = c.setWidth 32 ∧
    t.status = { s.status with busy := false, done := true, result := .ok } ∧
    { t with pbuf := s.pbuf, csum := s.csum, status := s.status } = s := by
  subst ht
  exact ⟨s.writeBytes_pbufBytes a bs, fun _ hout => State.writeBytes_pbufByte_outside (s := s) hout,
    readReg_csum_eq _, rfl, rfl⟩

/-! ## Bytes in front of other bytes -/

/-- A range that begins with the bytes written holds them and then what was there before. -/
theorem State.writeBytes_pbufBytes_add (a : Nat) (bs : List Byte) (n : Nat) (s : State) :
    (s.writeBytes a bs).pbufBytes a (bs.length + n) = bs ++ s.pbufBytes (a + bs.length) n := by
  rw [State.pbufBytes_add, State.writeBytes_pbufBytes]
  congr 1
  exact State.pbufBytes_congr fun i hlo _ => State.writeBytes_pbufByte_outside (.inr hlo)

/-- Two sequences written side by side, the second one first, leave the bytes that writing both at once leaves. -/
theorem State.writeBytes_append_pbufByte (a : Nat) (bs cs : List Byte) (s : State) (i : Nat) :
    ((s.writeBytes (a + bs.length) cs).writeBytes a bs).pbufByte i = (s.writeBytes a (bs ++ cs)).pbufByte i := by
  simp only [State.writeBytes_pbufByte, List.length_append]
  by_cases hbs : a ≤ i ∧ i < a + bs.length
  · rw [dif_pos hbs, dif_pos (by omega), List.getElem_append_left]
  · rw [dif_neg hbs]
    by_cases hcs : a + bs.length ≤ i ∧ i < a + bs.length + cs.length
    · rw [dif_pos hcs, dif_pos (by omega), List.getElem_append_right (by omega)]
      simp only [Nat.sub_add_eq]
    · rw [dif_neg hcs, dif_neg (by omega)]

/-! ## The segment -/

/-- A segment whose header holds its checksum checks to 0 (41_encode.md R133). -/
theorem State.inetChecksum_icmpHeader_append {s : State} {c : Half} {pl : List Byte} (hc : c = s.segmentChecksum pl) :
    inetChecksum (s.icmpHeader c ++ pl) = 0x0000 :=
  inetChecksum_stored (pre := [s.opType, s.opCode]) (Nat.mod_self 2)
    (post := [hiByte s.opId, loByte s.opId, hiByte s.opSeq, loByte s.opSeq] ++ pl) hc

/-- PACK writes the address-mask payload behind the header (30_encoding.md R96, 41_encode.md R134). -/
theorem State.memWrite_four_opMask (s : State) (a : Nat) :
    s.memWrite a 4 s.opMask.toNat = s.writeBytes a (maskPayload s.opMask) :=
  congrArg (s.writeBytes a) (beBytes_four s.opMask)

/-- The state from which ENCODE starts in the sequence of 41_encode.md R135, once PACK fitted. -/
def State.packed (s : State) : State :=
  { (s.memWrite (s.opBase + 8) 4 s.opMask.toNat).complete .ok with len := 4 }

/-- ENCODE with LEN = 4 reads as its payload what PACK wrote. -/
theorem State.packed_encodePayload (s : State) : s.packed.encodePayload = maskPayload s.opMask := by
  calc s.packed.encodePayload
    _ = (s.memWrite (s.opBase + 8) 4 s.opMask.toNat).pbufBytes (s.opBase + 8) 4 := rfl
    _ = maskPayload s.opMask := by rw [State.memWrite_four_opMask]; exact State.writeBytes_pbufBytes _ (maskPayload _) s

/-- The checksum of ENCODE after PACK is the one of ENCODE_AM (41_encode.md R135). -/
theorem State.packed_segmentChecksum (s : State) :
    s.packed.segmentChecksum s.packed.encodePayload = s.segmentChecksum (maskPayload s.opMask) := by
  rw [State.packed_encodePayload]
  rfl

/-- A header written after PACK leaves the bytes that ENCODE_AM leaves (41_encode.md R135). -/
theorem State.packed_writeBytes_pbufByte (s : State) (c : Half) (i : Nat) :
    (s.packed.writeBytes s.opBase (s.icmpHeader c)).pbufByte i =
      (s.writeBytes s.opBase (s.icmpHeader c ++ maskPayload s.opMask)).pbufByte i := by
  rw [← State.writeBytes_append_pbufByte, ← State.memWrite_four_opMask]
  exact State.pbufByte_congr rfl rfl i

end Sys2Proof.Machine
end

section
/-! The obligations on the encode family (41_encode.md). -/

namespace Sys2Proof.Machine

/-- Settles O22: the header is what is written, and a BAD_LENGTH completion does nothing else. -/
theorem encodeWritesHeaderAndChecksum : Obligations.EncodeWritesHeaderAndChecksum := by
  refine fun s => ⟨fun hfit => ?_, execEncode_of_not_fits⟩
  obtain ⟨c, hc⟩ : ∃ c, c = s.segmentChecksum s.encodePayload := ⟨_, rfl⟩
  exact ⟨_, c, execEncode_of_fits hfit hc, hc, State.writeBytes_setCsum_complete (bs := s.icmpHeader c) rfl⟩

/-- Settles O23: the big-endian bytes of MASK are the address-mask payload. -/
theorem packWritesTheMaskPayload : Obligations.PackWritesTheMaskPayload := by
  refine fun s => ⟨fun hfit => ?_, execPack_of_not_fits⟩
  have hpack := execPack_of_fits (s := s) hfit
  rw [State.memWrite_four_opMask] at hpack
  exact ⟨_, hpack, State.writeBytes_complete (bs := maskPayload s.opMask) rfl⟩

/-- Settles O24: the message is what is written, and its checksum is computed from MASK and not from PBUF. -/
theorem encodeAmWritesTheWholeMessage : Obligations.EncodeAmWritesTheWholeMessage := by
  refine fun s => ⟨fun hfit => ?_, execEncodeAm_of_not_fits⟩
  obtain ⟨c, hc⟩ : ∃ c, c = s.segmentChecksum (maskPayload s.opMask) := ⟨_, rfl⟩
  exact ⟨_, c, execEncodeAm_of_fits hfit hc, hc,
    State.writeBytes_setCsum_complete (bs := s.icmpHeader c ++ maskPayload s.opMask) rfl⟩

/-- Settles O25: all three commands make the same check; when it passes, ENCODE finds the payload that ENCODE_AM takes
from MASK, and so computes the same checksum. -/
theorem packThenEncodeEqualsEncodeAm : Obligations.PackThenEncodeEqualsEncodeAm := by
  intro s
  by_cases hfit : s.opBase + 12 ≤ s.bufSize
  · obtain ⟨c, hc⟩ : ∃ c, c = s.segmentChecksum (maskPayload s.opMask) := ⟨_, rfl⟩
    have hencode := execEncode_of_fits (s := s.packed) hfit (hc.trans s.packed_segmentChecksum.symm)
    have hbytes := s.packed_writeBytes_pbufByte c
    refine ⟨_, _, _, execPack_of_fits hfit, hencode, execEncodeAm_of_fits hfit hc, ?_⟩
    simp only [State.complete_pbufBytes, State.setCsum_pbufBytes, State.complete_pbufByte, State.setCsum_pbufByte,
      State.complete_csum, State.setCsum_csum, State.complete_status, Status.completed_result, true_and, and_true]
    exact ⟨State.pbufBytes_congr fun i _ _ => hbytes i, hbytes⟩
  · have hnot := Nat.not_le.mp hfit
    exact ⟨_, _, _, execPack_of_not_fits hnot, execEncode_of_not_fits hnot, execEncodeAm_of_not_fits hnot,
      rfl, rfl, fun _ => rfl, rfl⟩

/-- Settles O54: the finished segment is the header, with the checksum stored in it, and the payload. -/
theorem encodedSegmentSumsToZero : Obligations.EncodedSegmentSumsToZero := by
  constructor
  · intro s hfit
    obtain ⟨c, hc⟩ : ∃ c, c = s.segmentChecksum s.encodePayload := ⟨_, rfl⟩
    have hsegment : (s.writeBytes s.opBase (s.icmpHeader c)).pbufBytes s.opBase (8 + s.opLen) =
        s.icmpHeader c ++ s.encodePayload := s.writeBytes_pbufBytes_add s.opBase (s.icmpHeader c) s.opLen
    refine ⟨_, execEncode_of_fits hfit hc, rfl, ?_⟩
    rw [State.complete_pbufBytes, State.setCsum_pbufBytes]
    exact (congrArg inetChecksum hsegment).trans (State.inetChecksum_icmpHeader_append hc)
  · intro s hfit
    obtain ⟨c, hc⟩ : ∃ c, c = s.segmentChecksum (maskPayload s.opMask) := ⟨_, rfl⟩
    have hmessage : (s.writeBytes s.opBase (s.icmpHeader c ++ maskPayload s.opMask)).pbufBytes s.opBase 12 =
        s.icmpHeader c ++ maskPayload s.opMask := s.writeBytes_pbufBytes s.opBase _
    refine ⟨_, execEncodeAm_of_fits hfit hc, rfl, ?_⟩
    rw [State.complete_pbufBytes, State.setCsum_pbufBytes]
    exact (congrArg inetChecksum hmessage).trans (State.inetChecksum_icmpHeader_append hc)

end Sys2Proof.Machine
end

section
/-! SUPPORT. The command DECODE (42_decode.md): its checks in numbers, and the values of the ten decode result
registers. -/

namespace Sys2Proof.Machine

/-! ## Fields that PBUF holds -/

/-- A 16-bit field loses no bit in a register (30_encoding.md R95). -/
theorem State.half_memRead_toNat (s : State) (a : Nat) : (BitVec.ofNat 16 (s.memRead a 2)).toNat = s.memRead a 2 :=
  Nat.mod_eq_of_lt (s.memRead_two_lt a)

/-- A 32-bit field loses no bit in a register (30_encoding.md R98). -/
theorem State.word_memRead_toNat (s : State) (a : Nat) : (BitVec.ofNat 32 (s.memRead a 4)).toNat = s.memRead a 4 :=
  Nat.mod_eq_of_lt (s.memRead_four_lt a)

theorem State.storedChecksum_toNat (s : State) : s.storedChecksum.toNat = s.memRead (s.segmentStart + 2) 2 :=
  s.half_memRead_toNat _

/-- A field that holds the two bytes of a value reads as that value. -/
theorem State.memRead_two_of_bytes {s : State} {a : Nat} {v : Half} (hhi : s.pbufByte a = hiByte v)
    (hlo : s.pbufByte (a + 1) = loByte v) : s.memRead a 2 = v.toNat := by
  rw [State.memRead_two, hhi, hlo, hiByte_mul_add_loByte]

/-! ## The checks -/

/-- DECODE compares the two checksums as numbers (42_decode.md R157). -/
theorem State.calcChecksum_eq_iff (s : State) :
    s.calcChecksum = s.storedChecksum ↔ s.calcChecksum.toNat = s.memRead (s.segmentStart + 2) 2 := by
  rw [← BitVec.toNat_inj, State.storedChecksum_toNat]

/-- The result code, with the last check in numbers (42_decode.md R161). -/
theorem State.decodeResult_eq (s : State) :
    s.decodeResult =
      if s.bufSize < s.opBase + s.opLen then .badLength
      else if s.opLen < 20 then .truncated
      else if s.opLen < s.datagramHlen + 8 then .truncated
      else if s.calcChecksum.toNat ≠ s.memRead (s.segmentStart + 2) 2 then .checksumMismatch
      else .ok := by
  simp only [State.decodeResult, ne_eq, State.calcChecksum_eq_iff]

theorem State.decodeResult_of_not_fits {s : State} (h : s.bufSize < s.opBase + s.opLen) :
    s.decodeResult = .badLength :=
  if_pos h

theorem State.decodeResult_of_truncated {s : State} (hfit : s.opBase + s.opLen ≤ s.bufSize)
    (h : s.opLen < 20 ∨ s.opLen < s.datagramHlen + 8) : s.decodeResult = .truncated := by
  rw [State.decodeResult, if_neg (Nat.not_lt.mpr hfit)]
  split
  · rfl
  · exact if_pos (h.resolve_left ‹_›)

/-- Once the checks of length have passed, the checksums decide (42_decode.md R161). -/
theorem State.decodeResult_of_long {s : State} (hfit : s.opBase + s.opLen ≤ s.bufSize) (hlen : 20 ≤ s.opLen)
    (hseg : s.datagramHlen + 8 ≤ s.opLen) :
    s.decodeResult = if s.calcChecksum = s.storedChecksum then .ok else .checksumMismatch := by
  rw [State.decodeResult, if_neg (Nat.not_lt.mpr hfit), if_neg (Nat.not_lt.mpr hlen), if_neg (Nat.not_lt.mpr hseg),
    ite_not]

theorem execDecode_of_ok {s : State} (h : s.decodeResult = .ok) :
    execDecode s = .next ((s.setRx s.decodedRx).complete .ok) := by
  rw [execDecode_eq, h, if_pos rfl]

/-- A DECODE that fails a check writes no decode result register (42_decode.md R158). -/
theorem execDecode_of_fails {s : State} {code : ResultCode} (h : s.decodeResult = code) (hne : code ≠ .ok) :
    execDecode s = .next (s.complete code) := by
  rw [execDecode_eq, h, if_neg hne]
  rfl

/-- A DECODE that ends with OK passed its checks and wrote the ten registers. -/
theorem execDecode_ok_inv {s t : State} (h : execDecode s = .next t) (hok : t.status.result = .ok) :
    s.decodeResult = .ok ∧ t.rx = s.decodedRx := by
  obtain ⟨hfail, rfl⟩ | ⟨hs, rfl⟩ := execDecode_cases h
  · exact absurd hok hfail
  · exact ⟨hs, rfl⟩

/-- What DECODE answers depends on BASE, LEN, BUF_SIZE and the datagram alone (42_decode.md R151): the other operand
registers, which `SameOperands` compares too, are no part of it. -/
theorem State.decode_congr {s s' : State} (hbase : s.base = s'.base) (hlen : s.len = s'.len) (hz : s.bufsz = s'.bufsz)
    (hread : ∀ a, s.opBase ≤ a → a < s.opBase + s.opLen → s.pbufByte a = s'.pbufByte a) :
    s.decodeResult = s'.decodeResult ∧ (s.decodeResult = .ok → s.decodedRx = s'.decodedRx) := by
  have h : SameOperands s { s' with txh0 := s.txh0, txh1 := s.txh1, mask := s.mask } :=
    ⟨hlen, hbase, rfl, rfl, rfl, hz⟩
  refine ⟨h.decodeResult hread, fun hok => ?_⟩
  obtain ⟨-, h20, hseg, -⟩ := s.decodeResult_eq_ok_iff.mp hok
  exact h.decodedRx hread h20 hseg

/-! ## The ten registers -/

theorem State.decodedRx_ip0_toNat (s : State) :
    s.decodedRx.ip0.word.toNat =
      (s.pbufByte s.opBase).toNat * 2 ^ 24 + s.datagramHlen * 2 ^ 16 + s.memRead (s.opBase + 2) 2 := by
  rw [RxIp0.word_toNat, State.decodedRx_hlen]
  simp only [State.decodedRx, State.half_memRead_toNat]

theorem State.decodedRx_ip1_toNat (s : State) :
    s.decodedRx.ip1.word.toNat =
      (s.pbufByte (s.opBase + 8)).toNat * 2 ^ 24 + (s.pbufByte (s.opBase + 9)).toNat * 2 ^ 16 +
        s.memRead (s.opBase + 10) 2 := by
  simp only [State.decodedRx, RxIp1.word_toNat, State.half_memRead_toNat]

theorem State.decodedRx_ic0_toNat (s : State) :
    s.decodedRx.ic0.word.toNat =
      (s.pbufByte s.segmentStart).toNat * 2 ^ 24 + (s.pbufByte (s.segmentStart + 1)).toNat * 2 ^ 16 +
        s.memRead (s.segmentStart + 2) 2 := by
  simp only [State.decodedRx, RxIc0.word_toNat, State.storedChecksum_toNat]

theorem State.decodedRx_ic1_toNat (s : State) :
    s.decodedRx.ic1.word.toNat =
      s.memRead (s.segmentStart + 4) 2 * 2 ^ 16 + s.memRead (s.segmentStart + 6) 2 := by
  simp only [State.decodedRx, RxIc1.word_toNat, State.half_memRead_toNat]

theorem RxIc0.word_typ (r : RxIc0) : r.word.extractLsb' 24 8 = r.typ :=
  (BitVec.extractLsb'_append_eq_of_le (by decide)).trans BitVec.extractLsb'_append_eq_left

theorem RxIc0.word_code (r : RxIc0) : r.word.extractLsb' 16 8 = r.code :=
  (BitVec.extractLsb'_append_eq_of_le (by decide)).trans BitVec.extractLsb'_append_eq_right

section
variable {s t : State} (h : execDecode s = .next t) (hres : t.status.result = .ok)
include h hres

/-- After a DECODE with OK, RX_PLOFF locates the byte after the ICMP header (10_state.md R39). -/
theorem execDecode_ploff : (t.readReg .rxPloff).toNat = s.segmentStart + 8 := by
  obtain ⟨hok, hrx⟩ := execDecode_ok_inv h hres
  obtain ⟨hfit, -, hseg, -⟩ := s.decodeResult_eq_ok_iff.mp hok
  have hz : s.bufSize < 2 ^ 17 := s.bufsz.isLt
  have hg : s.segmentStart = s.opBase + s.datagramHlen := rfl
  rw [State.readReg, hrx, zext17_toNat]
  exact Nat.mod_eq_of_lt (by omega)

/-- After a DECODE with OK, RX_PLLEN is the length of the payload (10_state.md R39). -/
theorem execDecode_pllen : (t.readReg .rxPllen).toNat = s.payloadLen := by
  obtain ⟨hok, hrx⟩ := execDecode_ok_inv h hres
  obtain ⟨hfit, -, hseg, -⟩ := s.decodeResult_eq_ok_iff.mp hok
  have hz : s.bufSize < 2 ^ 17 := s.bufsz.isLt
  have hp : s.payloadLen = s.opLen - s.datagramHlen - 8 := rfl
  rw [State.readReg, hrx, zext17_toNat]
  exact Nat.mod_eq_of_lt (by omega)

end

/-! ## RX_MASK and RX_CLASS -/

/-- Byte k of the payload, 0 beyond its end (42_decode.md R159). -/
def State.payloadByte (s : State) (k : Nat) : Byte :=
  if k < s.payloadLen then s.pbufByte (s.segmentStart + 8 + k) else 0

theorem State.payloadByte_toNat (s : State) (k : Nat) :
    (s.payloadByte k).toNat = if k < s.payloadLen then (s.pbufByte (s.segmentStart + (8 + k))).toNat else 0 := by
  rw [State.payloadByte, apply_ite BitVec.toNat, Nat.add_assoc]
  rfl

/-- RX_MASK is the number whose four digits in base 256 are the first four payload bytes. -/
theorem State.decodedRx_mask_toNat (s : State) :
    s.decodedRx.mask.toNat =
      (s.payloadByte 0).toNat * 256 ^ 3 + (s.payloadByte 1).toNat * 256 ^ 2 + (s.payloadByte 2).toNat * 256 +
        (s.payloadByte 3).toNat := by
  have hval : s.unpackMask = (((s.payloadByte 0).toNat * 256 + (s.payloadByte 1).toNat) * 256 +
      (s.payloadByte 2).toNat) * 256 + (s.payloadByte 3).toNat := by
    simp [State.unpackMask, State.payloadByte, beValue, List.range_succ]
  have h0 := (s.payloadByte 0).isLt
  have h1 := (s.payloadByte 1).isLt
  have h2 := (s.payloadByte 2).isLt
  have h3 := (s.payloadByte 3).isLt
  rw [show s.decodedRx.mask = BitVec.ofNat 32 s.unpackMask from rfl, BitVec.toNat_ofNat, hval]
  omega

theorem State.decodedRx_mask_byte (s : State) {k : Nat} (hk : k < 4) :
    s.decodedRx.mask.extractLsb' (8 * (3 - k)) 8 = s.payloadByte k := by
  have hval := s.decodedRx_mask_toNat
  have h1 := (s.payloadByte 1).isLt
  have h2 := (s.payloadByte 2).isLt
  have h3 := (s.payloadByte 3).isLt
  have hlt := (s.payloadByte k).isLt
  apply extractLsb'_eq_of_toNat
  interval_cases k <;> omega

theorem amClassOf_bits (t : Byte) : (amClassOf t).bits = if t = 17 then 1 else if t = 18 then 2 else 0 := by
  unfold amClassOf
  split
  · rfl
  · split <;> rfl

/-- RX_CLASS as a number (42_decode.md R160). -/
theorem classify_toNat (typ code : Byte) :
    (classify typ code).word.toNat =
      (if typ = 17 then 1 else if typ = 18 then 2 else 0) + 4 * (if code = 0 then 1 else 0) := by
  rw [RxClass.word_toNat]
  simp only [classify, amClassOf_bits, apply_ite BitVec.toNat, beq_iff_eq]
  rfl

/-- RX_CLASS holds AMCLASS in bits 1:0, CODEZ in bit 2 and 0 in every other bit (10_state.md R40). -/
theorem RxClass.word_fields (r : RxClass) :
    r.word.extractLsb' 0 2 = r.amclass.bits ∧ r.word.getLsbD 2 = r.codez ∧ r.word.extractLsb' 3 29 = 0 := by
  obtain ⟨am, cz⟩ := r
  cases am <;> cases cz <;> decide

/-! ## What changes the ten registers -/

/-- A command that changes them is DECODE and completes with OK (42_decode.md R158). -/
theorem exec_rx {i : Instr} {s t : State} (h : exec i s = .next t) (hne : t.rx ≠ s.rx) :
    i = .decode ∧ t.status.result = .ok ∧ t.status.busy = false := by
  obtain ⟨_, rfl⟩ | ⟨-, _, _, -, rfl⟩ | ⟨-, -, rfl⟩ | ⟨-, _, rfl⟩ | ⟨hi, -, rfl⟩ := exec_cases h
  · exact absurd rfl hne
  · exact absurd rfl hne
  · exact absurd rfl hne
  · exact absurd rfl hne
  · exact ⟨hi, rfl, rfl⟩

theorem engineCommand_rx {s t : State} (h : engineCommand s = .next t) (hne : t.rx ≠ s.rx) :
    decodeWord s.cmd = .ok .decode ∧ t.status.result = .ok ∧ t.status.busy = false := by
  obtain ⟨_, rfl⟩ | ⟨i, hw, hi⟩ := engineCommand_next h
  · exact absurd rfl hne
  · obtain ⟨rfl, hdone⟩ := exec_rx hi hne
    exact ⟨hw, hdone⟩

@[simp] theorem State.transact_rx (x : Txn) (s : State) : (s.transact x).rx = s.rx := by
  obtain h | ⟨_, -, h⟩ | ⟨_, -, -, h⟩ | ⟨_, _, -, -, -, h⟩ := s.transact_cases x <;> simp [h]

end Sys2Proof.Machine
end

section
/-! SUPPORT. A segment that ENCODE wrote, as DECODE finds it: unchanged (42_decode.md R162), or with one byte changed
(42_decode.md R163). -/

namespace Sys2Proof.Machine

/-! ## The datagram that the operands name -/

/-- The operands of `u` name a datagram of DECODE inside PBUF: at B, with a declared header of H bytes, 20 or more, and
P bytes of payload behind the ICMP header. -/
structure State.NamesDatagram (u : State) (B H P : Nat) : Prop where
  base : u.opBase = B
  len : u.opLen = H + 8 + P
  hlen : u.datagramHlen = H
  header : 20 ≤ H
  fits : B + H + 8 + P ≤ u.bufSize

theorem State.namesDatagram_of_operands {u : State} {B H P : Nat} (hbase : u.base.toNat = B)
    (hlen : u.len.toNat = H + 8 + P) (hH : H = ((u.pbufByte B).toNat &&& 0x0F) * 4) (hheader : 20 ≤ H)
    (hfit : B + H + 8 + P ≤ u.bufsz.toNat) : u.NamesDatagram B H P := by
  subst hbase
  exact ⟨rfl, hlen, hH.symm, hheader, hfit⟩

section
variable {u : State} {B H P : Nat} (h : u.NamesDatagram B H P)
include h

theorem State.NamesDatagram.segmentStart : u.segmentStart = B + H := by
  rw [State.segmentStart, h.base, h.hlen]

theorem State.NamesDatagram.segmentLen : u.segmentLen = 8 + P := by
  rw [State.segmentLen, h.len, h.hlen]
  omega

theorem State.NamesDatagram.payloadLen : u.payloadLen = P := by
  rw [State.payloadLen, h.segmentLen]
  omega

/-- Such a datagram passes the checks of length. -/
theorem State.NamesDatagram.decodeResult :
    u.decodeResult = if u.calcChecksum = u.storedChecksum then .ok else .checksumMismatch := by
  obtain ⟨hbase, hlen, hhlen, hheader, hfits⟩ := h
  exact State.decodeResult_of_long (by omega) (by omega) (by omega)

end

/-! ## The segment, byte by byte -/

/-- After an ENCODE that fits, PBUF holds the header with the checksum, and then the payload that was there
(41_encode.md R130). -/
theorem exec_encode_segment {s t : State} {g P : Nat} (hbase : s.base.toNat = g) (hlen : s.len.toNat = P)
    (hfit : g + 8 + P ≤ s.bufsz.toNat) (h : exec .encode s = .next t) :
    t.pbufBytes g (8 + P) =
      s.icmpHeader (s.segmentChecksum (s.pbufBytes (g + 8) P)) ++ s.pbufBytes (g + 8) P := by
  subst hbase hlen
  obtain ⟨hnot, -⟩ | ⟨-, c, rfl, rfl⟩ := execEncode_cases h
  · exact absurd hfit (Nat.not_le.mpr hnot)
  · rw [State.complete_pbufBytes, State.setCsum_pbufBytes]
    exact s.writeBytes_pbufBytes_add s.opBase (s.icmpHeader _) s.opLen

/-- An ICMP header in front of a payload (30_encoding.md R95). -/
theorem State.pbufBytes_eq_icmpHeader_append_iff {s u : State} {g n : Nat} {c : Half} {pl : List Byte} :
    u.pbufBytes g (8 + n) = s.icmpHeader c ++ pl ↔
      u.pbufByte g = s.opType ∧ u.pbufByte (g + 1) = s.opCode ∧
      u.pbufByte (g + 2) = hiByte c ∧ u.pbufByte (g + 3) = loByte c ∧
      u.pbufByte (g + 4) = hiByte s.opId ∧ u.pbufByte (g + 5) = loByte s.opId ∧
      u.pbufByte (g + 6) = hiByte s.opSeq ∧ u.pbufByte (g + 7) = loByte s.opSeq ∧
      u.pbufBytes (g + 8) n = pl := by
  have hhead : u.pbufBytes g 8 = [u.pbufByte g, u.pbufByte (g + 1), u.pbufByte (g + 2), u.pbufByte (g + 3),
      u.pbufByte (g + 4), u.pbufByte (g + 5), u.pbufByte (g + 6), u.pbufByte (g + 7)] := rfl
  rw [State.pbufBytes_add, hhead]
  simp [State.icmpHeader]

section
variable {s u : State} {n : Nat} {c : Half} {pl : List Byte}
  (h : u.pbufBytes u.segmentStart (8 + n) = s.icmpHeader c ++ pl)
include h

theorem State.storedChecksum_of_segment : u.storedChecksum = c := by
  obtain ⟨-, -, hhi, hlo, -⟩ := State.pbufBytes_eq_icmpHeader_append_iff.mp h
  apply BitVec.eq_of_toNat_eq
  rw [State.storedChecksum_toNat, State.memRead_two_of_bytes hhi hlo]

/-- The checksum that DECODE recomputes is the one that ENCODE computes: both take the header with a zero checksum field
and then the payload. -/
theorem State.calcChecksum_of_segment (hl : u.segmentLen = 8 + n) : u.calcChecksum = s.segmentChecksum pl := by
  obtain ⟨htyp, hcode, -, -, hidHi, hidLo, hseqHi, hseqLo, hpl⟩ := State.pbufBytes_eq_icmpHeader_append_iff.mp h
  have hfront : u.pbufBytes u.segmentStart 2 = [s.opType, s.opCode] := by
    rw [← htyp, ← hcode]
    rfl
  have hback : u.pbufBytes (u.segmentStart + 4) (u.segmentLen - 4) =
      [hiByte s.opId, loByte s.opId, hiByte s.opSeq, loByte s.opSeq] ++ pl := by
    rw [hl, show 8 + n - 4 = 4 + n by omega, State.pbufBytes_add, ← hidHi, ← hidLo, ← hseqHi, ← hseqLo, ← hpl]
    rfl
  rw [State.calcChecksum, State.zeroedSegment, hfront, hback]
  rfl

end

/-! ## One changed byte -/

/-- The sum of a sequence whose checksum is 0 is 0 modulo 0xFFFF (43_checksum.md R184). -/
theorem inetSum_mod_of_inetChecksum_eq_zero {xs : List Byte} (h : inetChecksum xs = 0x0000) :
    inetSum xs % 65535 = 0 := by
  have hval : 0xFFFF - fold16 (inetSum xs) = 0 := by
    rw [← inetChecksum_toNat, h]
    rfl
  have hmod := fold16_mod (inetSum xs)
  have hle := fold16_le (inetSum xs)
  omega

/-- A word of PBUF adds its value to the sum (43_checksum.md R182). -/
theorem State.inetSum_pbufBytes_two (s : State) (a : Nat) : inetSum (s.pbufBytes a 2) = s.memRead a 2 := by
  have hbytes : s.pbufBytes a 2 = [s.pbufByte a, s.pbufByte (a + 1)] := rfl
  rw [hbytes, inetSum_cons_cons, inetSum_nil, Nat.add_zero, State.memRead_two]

/-- The segment sums to its stored checksum and the sum with that field zeroed (42_decode.md R150). -/
theorem State.inetSum_segment {u : State} {n : Nat} (hl : u.segmentLen = 8 + n) :
    inetSum (u.pbufBytes u.segmentStart (8 + n)) = inetSum u.zeroedSegment + u.memRead (u.segmentStart + 2) 2 := by
  have hparts : u.pbufBytes u.segmentStart (8 + n) =
      u.pbufBytes u.segmentStart 2 ++ u.pbufBytes (u.segmentStart + 2) 2 ++
        u.pbufBytes (u.segmentStart + 4) (u.segmentLen - 4) := by
    rw [← State.pbufBytes_add, ← State.pbufBytes_add, hl, show 2 + 2 + (8 + n - 4) = 8 + n by omega]
  have hzero : inetSum [0x00, 0x00] = 0 := rfl
  rw [hparts, State.zeroedSegment, inetSum_append (by simp), inetSum_append (by simp), inetSum_append (by simp),
    inetSum_append (by simp), u.inetSum_pbufBytes_two (u.segmentStart + 2), hzero]
  omega

/-- The sum of a segment that passes the check of DECODE is 0 modulo 0xFFFF: the stored checksum is the complement of
the sum of the rest (42_decode.md R157). -/
theorem State.inetSum_segment_mod_of_calc_eq_stored {u : State} {n : Nat} (hl : u.segmentLen = 8 + n)
    (h : u.calcChecksum = u.storedChecksum) : inetSum (u.pbufBytes u.segmentStart (8 + n)) % 65535 = 0 := by
  have heq := u.calcChecksum_eq_iff.mp h
  rw [State.calcChecksum, inetChecksum_toNat] at heq
  have hmod := fold16_mod (inetSum u.zeroedSegment)
  have hle := fold16_le (inetSum u.zeroedSegment)
  rw [State.inetSum_segment hl]
  omega

/-- The place value of a byte in its 16-bit word (43_checksum.md R180). -/
def bytePlace (i : Nat) : Nat := if i % 2 = 0 then 256 else 1

theorem bytePlace_zero : bytePlace 0 = 256 := rfl

theorem bytePlace_one : bytePlace 1 = 1 := rfl

theorem bytePlace_add_two (i : Nat) : bytePlace (i + 2) = bytePlace i := by
  simp only [bytePlace, Nat.add_mod_right]

/-- Setting one byte changes the sum at that byte's place alone. -/
theorem inetSum_set {xs : List Byte} {i : Nat} (hi : i < xs.length) (b : Byte) :
    inetSum (xs.set i b) + xs[i].toNat * bytePlace i = inetSum xs + b.toNat * bytePlace i := by
  induction xs using inetWords.induct generalizing i with
  | case1 => exact absurd hi (Nat.not_lt_zero i)
  | case2 a =>
    obtain rfl : i = 0 := Nat.lt_one_iff.mp hi
    simp only [List.set_cons_zero, List.getElem_cons_zero, inetSum_singleton, bytePlace_zero]
    omega
  | case3 a c rest ih =>
    match i with
    | 0 =>
      simp only [List.set_cons_zero, List.getElem_cons_zero, inetSum_cons_cons, bytePlace_zero]
      omega
    | 1 =>
      simp only [List.set_cons_succ, List.set_cons_zero, List.getElem_cons_succ, List.getElem_cons_zero,
        inetSum_cons_cons, bytePlace_one]
      omega
    | j + 2 =>
      have hrest := ih (Nat.lt_of_add_lt_add_right hi : j < rest.length)
      simp only [List.set_cons_succ, List.getElem_cons_succ, inetSum_cons_cons, bytePlace_add_two]
      omega

/-- Another byte value at one place changes the sum modulo 0xFFFF, because it changes the sum by at most 255 * 256. -/
theorem inetSum_set_mod_ne {xs : List Byte} {i : Nat} (hi : i < xs.length) {b : Byte} (hb : b ≠ xs[i]) :
    inetSum (xs.set i b) % 65535 ≠ inetSum xs % 65535 := by
  have hset := inetSum_set hi b
  have hne : b.toNat ≠ xs[i].toNat := fun h => hb (BitVec.eq_of_toNat_eq h)
  have hlt := b.isLt
  have hlt' := xs[i].isLt
  unfold bytePlace at hset
  split at hset <;> omega

/-- A range with at most one byte changed. -/
theorem State.pbufBytes_eq_set {t u : State} {a n e : Nat} (hlo : a ≤ e)
    (h : ∀ i, a ≤ i → i < a + n → i ≠ e → u.pbufByte i = t.pbufByte i) :
    u.pbufBytes a n = (t.pbufBytes a n).set (e - a) (u.pbufByte e) := by
  apply List.ext_getElem
  · simp
  · intro k h1 h2
    rw [State.pbufBytes_length] at h1
    rw [List.getElem_set, State.pbufBytes_getElem, State.pbufBytes_getElem]
    split
    · rw [show a + k = e by omega]
    · exact h _ (by omega) (by omega) (by omega)

/-- A segment in which the checksum is 0 fails the check of DECODE after a change of one byte. -/
theorem State.NamesDatagram.decodeResult_of_changed_byte {t u : State} {B H P e : Nat} (hu : u.NamesDatagram B H P)
    (hzero : inetChecksum (t.pbufBytes (B + H) (8 + P)) = 0x0000) (hlo : B + H ≤ e) (hhi : e < B + H + (8 + P))
    (hsame : ∀ a, B + H ≤ a → a < B + H + (8 + P) → a ≠ e → u.pbufByte a = t.pbufByte a)
    (hne : u.pbufByte e ≠ t.pbufByte e) : u.decodeResult = .checksumMismatch := by
  rw [hu.decodeResult]
  refine if_neg fun heq => ?_
  have hsum := State.inetSum_segment_mod_of_calc_eq_stored hu.segmentLen heq
  have hi : e - (B + H) < (t.pbufBytes (B + H) (8 + P)).length := by
    rw [State.pbufBytes_length]
    omega
  have hbyte : u.pbufByte e ≠ (t.pbufBytes (B + H) (8 + P))[e - (B + H)] := by
    rwa [State.pbufBytes_getElem, Nat.add_sub_cancel' hlo]
  rw [hu.segmentStart, State.pbufBytes_eq_set hlo hsame] at hsum
  exact inetSum_set_mod_ne hi hbyte (hsum.trans (inetSum_mod_of_inetChecksum_eq_zero hzero).symm)

/-- Flipping bit k of a byte changes it. -/
theorem xor_bit_ne {k : Nat} (hk : k < 8) (b : Byte) : b ^^^ (1#8 <<< k) ≠ b := by
  intro h
  have hbit := congrArg (·.getLsbD k) h
  simp [hk] at hbit

end Sys2Proof.Machine
end

section
/-! The obligations on DECODE (42_decode.md). -/

namespace Sys2Proof.Machine

/-- Settles O56: DECODE finds the header and the payload that ENCODE left, recomputes the checksum that is stored there,
and so passes its checks; each register then shows the field of the header it was taken from. -/
theorem decodeInvertsEncode : Obligations.DecodeInvertsEncode := by
  intro s t u B H P hBase hLen hfit henc hheader hH hz hbase hlen hsame
  have hu : u.NamesDatagram B H P :=
    State.namesDatagram_of_operands hbase hlen (by rwa [hsame B (by omega) (by omega)]) hheader (by rwa [hz])
  have hsegment : u.pbufBytes u.segmentStart (8 + P) =
      s.icmpHeader (s.segmentChecksum (s.pbufBytes (B + H + 8) P)) ++ s.pbufBytes (B + H + 8) P := by
    rw [hu.segmentStart, ← exec_encode_segment hBase hLen hfit henc]
    exact State.pbufBytes_congr fun a _ _ => hsame a (by omega) (by omega)
  have hok : u.decodeResult = .ok := by
    rw [hu.decodeResult, State.storedChecksum_of_segment hsegment,
      State.calcChecksum_of_segment hsegment hu.segmentLen, if_pos rfl]
  obtain ⟨htyp, hcode, -, -, hidHi, hidLo, hseqHi, hseqLo, hpl⟩ :=
    State.pbufBytes_eq_icmpHeader_append_iff.mp hsegment
  have hdec := execDecode_of_ok hok
  refine ⟨_, hdec, rfl, (RxIc0.word_typ _).trans htyp, (RxIc0.word_code _).trans hcode,
    u.decodedRx_ic1_toNat.trans ?_, (execDecode_ploff hdec rfl).trans ?_,
    (execDecode_pllen hdec rfl).trans hu.payloadLen, ?_⟩
  · rw [State.memRead_two_of_bytes hidHi hidLo, State.memRead_two_of_bytes hseqHi hseqLo]
    rfl
  · rw [hu.segmentStart]
  · rwa [hu.segmentStart] at hpl

/-- Settles O57: the sum of the encoded segment is 0 modulo 0xFFFF, and one changed byte changes it. -/
theorem singleBitErrorsAreDetected : Obligations.SingleBitErrorsAreDetected := by
  intro s t u B H P e k hBase hLen hfit henc hheader hH hz hbase hlen hlo hhi hk hsame hflip
  have hu : u.NamesDatagram B H P :=
    State.namesDatagram_of_operands hbase hlen (by rwa [hsame B (by omega) (by omega) (by omega)]) hheader (by rwa [hz])
  have hzero : inetChecksum (t.pbufBytes (B + H) (8 + P)) = 0x0000 := by
    rw [exec_encode_segment hBase hLen hfit henc]
    exact State.inetChecksum_icmpHeader_append rfl
  have hbad : u.decodeResult = .checksumMismatch :=
    hu.decodeResult_of_changed_byte hzero hlo (by omega) (fun a _ _ => hsame a (by omega) (by omega))
      (hflip ▸ xor_bit_ne hk _)
  exact ⟨_, execDecode_of_fails hbad (by decide), rfl⟩

/-- Settles O27: each register is the word of its fields, and a failing DECODE only completes. -/
theorem decodeWritesTheResultRegisters : Obligations.DecodeWritesTheResultRegisters := by
  rintro s _ _ _ _ _ rfl rfl rfl rfl rfl
  refine ⟨fun hfit hlen hseg hsum => ?_, fun h => ?_, fun hfit h => ?_, fun hfit hlen hseg hsum => ?_⟩
  · have hok := s.decodeResult_eq_ok_iff.mpr ⟨hfit, hlen, hseg, s.calcChecksum_eq_iff.mpr hsum⟩
    have hdec := execDecode_of_ok hok
    refine ⟨_, hdec, s.decodedRx_ip0_toNat, s.decodedRx_ip1_toNat, s.word_memRead_toNat _,
      s.word_memRead_toNat _, s.decodedRx_ic0_toNat, s.decodedRx_ic1_toNat,
      execDecode_ploff hdec rfl, execDecode_pllen hdec rfl, s.decodedRx_mask_toNat.trans ?_, classify_toNat _ _,
      fun _ => rfl, rfl, rfl⟩
    simp only [State.payloadByte_toNat]
    rfl
  · exact execDecode_of_fails (State.decodeResult_of_not_fits h) (by decide)
  · exact execDecode_of_fails (State.decodeResult_of_truncated hfit h) (by decide)
  · have hbad : s.decodeResult = .checksumMismatch :=
      (State.decodeResult_of_long hfit hlen hseg).trans (if_neg (mt s.calcChecksum_eq_iff.mp hsum))
    exact execDecode_of_fails hbad (by decide)

/-- Settles O28: RESULT is the code of the checks. -/
theorem decodeReportsTheFirstFailingCheck : Obligations.DecodeReportsTheFirstFailingCheck := by
  rintro s _ _ _ _ _ rfl rfl rfl rfl rfl
  exact ⟨_, execDecode_eq s, s.decodeResult_eq⟩

/-- Settles O29: after the checks of length, RESULT is decided by the comparison. -/
theorem checksumMismatchIsAnExactComparison : Obligations.ChecksumMismatchIsAnExactComparison := by
  rintro s _ _ rfl rfl hfit hlen hseg
  have hresult := State.decodeResult_of_long (s := s) hfit hlen hseg
  constructor
  · rintro ⟨t, ht, hbad⟩ hsum
    have hok := hresult.trans (if_pos (s.calcChecksum_eq_iff.mpr hsum))
    obtain rfl := Host.Outcome.next.inj ((execDecode_of_ok hok).symm.trans ht)
    cases hbad
  · intro hsum
    have hmismatch := hresult.trans (if_neg (mt s.calcChecksum_eq_iff.mp hsum))
    exact ⟨_, execDecode_of_fails hmismatch (by decide), rfl⟩

/-- Settles O30: the bounds are what the checks of length say. -/
theorem decodeStaysInsideTheDatagram : Obligations.DecodeStaysInsideTheDatagram := by
  refine ⟨fun s t h hres => ?_, fun s h => ?_, fun s s' hbase hlen hz hread => ?_⟩
  · obtain ⟨hok, -⟩ := execDecode_ok_inv h hres
    obtain ⟨hfit, -, hseg, -⟩ := s.decodeResult_eq_ok_iff.mp hok
    have hploff := execDecode_ploff h hres
    have hpllen := execDecode_pllen h hres
    have hstart : s.segmentStart = s.opBase + s.datagramHlen := rfl
    have hp : s.payloadLen = s.opLen - s.datagramHlen - 8 := rfl
    have hinside : s.segmentStart + 8 ≤ s.opBase + s.opLen := by omega
    have hroom : s.payloadLen ≤ s.bufSize - 8 := by omega
    exact ⟨hploff, hploff.trans_le hinside, hfit, hpllen.trans_le hroom⟩
  · exact ⟨_, execDecode_of_fails (State.decodeResult_of_not_fits h) (by decide), rfl⟩
  · obtain ⟨hresult, hrx⟩ := State.decode_congr hbase hlen hz hread
    refine ⟨_, _, execDecode_eq s, execDecode_eq s', hresult, fun hok => ?_⟩
    have hs : s.decodeResult = .ok := hok
    simp only [State.complete_rx, State.setRx_rx, ← hresult, hs, if_pos, hrx hs]

/-- Settles O31: the bytes of the mask are the payload's. -/
theorem rxMaskTakesTheFirstFourPayloadBytes : Obligations.RxMaskTakesTheFirstFourPayloadBytes := by
  intro s t h hres k hk
  obtain ⟨-, hrx⟩ := execDecode_ok_inv h hres
  rw [execDecode_ploff h hres, execDecode_pllen h hres, State.readReg, hrx]
  exact s.decodedRx_mask_byte hk

/-- Settles O32: RX_CLASS is computed from the type and code that RX_IC0 holds. -/
theorem rxClassFollowsTypeAndCode : Obligations.RxClassFollowsTypeAndCode := by
  intro s t h hres
  obtain ⟨-, hrx⟩ := execDecode_ok_inv h hres
  have hcls : t.rx.cls = classify t.rx.ic0.typ t.rx.ic0.code := by rw [hrx]; rfl
  obtain ⟨ham, hcz, hzero⟩ := t.rx.cls.word_fields
  simp only [State.readReg, RxIc0.word_typ, RxIc0.word_code]
  refine ⟨ham.trans ?_, hcz.trans ?_, hzero⟩
  · rw [hcls]
    exact amClassOf_bits _
  · rw [hcls]
    rfl

/-- Settles O33: of what a step can be, only the completion of a DECODE and the release of rst write the registers. -/
theorem rxRegistersChangeOnlyAtASuccessfulDecode : Obligations.RxRegistersChangeOnlyAtASuccessfulDecode := by
  intro s t h hne
  obtain ⟨_, rfl, ⟨-, hb, -, hc⟩ | ⟨-, rfl⟩ | ⟨x, -, -, rfl⟩ | ⟨l, rest, hi, rfl⟩⟩ := step_cases h
  · exact .inl ⟨hb, (engineCommand_rx hc hne :)⟩
  · exact absurd rfl hne
  · exact absurd (State.transact_rx x s.popped) hne
  · obtain ⟨hr, rfl, -⟩ | ⟨-, hp⟩ := s.popped.drivePin_cases l
    · exact .inr ⟨hr, rest, hi⟩
    · exact absurd (congrArg State.rx hp) hne

end Sys2Proof.Machine
end

section
/-! SUPPORT. What determines the fold, sums of words, and the command CHECKSUM (43_checksum.md R182, R184 to R188). -/

namespace Sys2Proof.Machine

/-! ## The fold -/

/-- Only 0 folds to 0 (43_checksum.md R184). -/
theorem fold16_eq_zero_iff (S : Nat) : fold16 S = 0 ↔ S = 0 := by
  constructor
  · exact fun h => Nat.eq_zero_of_not_pos fun hpos => (fold16_pos hpos).ne' h
  · rintro rfl
    rfl

/-- The fold is the one 16-bit value that is congruent to S modulo 0xFFFF and is 0 exactly when S is: the residue 0 has
the two representatives 0 and 0xFFFF, and the last condition chooses between them. -/
theorem fold16_eq_of_mod_eq {S r : Nat} (hle : r ≤ 0xFFFF) (hmod : r % 65535 = S % 65535) (hzero : r = 0 ↔ S = 0) :
    fold16 S = r := by
  have hfold_mod := fold16_mod S
  have hfold_le := fold16_le S
  have hfold_zero := fold16_eq_zero_iff S
  omega

/-- The closed form of the fold (43_checksum.md R184). -/
theorem fold16_of_pos {S : Nat} (h : 0 < S) : fold16 S = (S - 1) % 0xFFFF + 1 :=
  fold16_eq_of_mod_eq (by omega) (by omega) (by omega)

/-- The fold of a value that is not 0 depends on its residue alone (43_checksum.md R184). -/
theorem fold16_congr {S T : Nat} (hmod : S % 65535 = T % 65535) (hS : 0 < S) (hT : 0 < T) : fold16 S = fold16 T := by
  have hpos := fold16_pos hT
  exact fold16_eq_of_mod_eq (fold16_le T) ((fold16_mod T).trans hmod.symm) (by omega)

/-- A word added with end-around carry to a folded sum folds the sum with this word (43_checksum.md R186). -/
theorem adderStep_fold16 (S : Nat) {w : Nat} (hw : w ≤ 0xFFFF) : adderStep (fold16 S) w = fold16 (S + w) := by
  have hmod := fold16_mod S
  have hle := fold16_le S
  have hzero := fold16_eq_zero_iff S
  symm
  simp only [adderStep]
  split <;> exact fold16_eq_of_mod_eq (by omega) (by omega) (by omega)

/-- The adder, started from a folded sum, keeps the fold of the sum of the words so far (43_checksum.md R186). -/
theorem foldl_adderStep_fold16 {ws : List Nat} (hws : ∀ w ∈ ws, w ≤ 0xFFFF) (S : Nat) :
    ws.foldl adderStep (fold16 S) = fold16 (S + ws.sum) := by
  induction ws generalizing S with
  | nil => rfl
  | cons w ws ih =>
    obtain ⟨hw, hrest⟩ := List.forall_mem_cons.mp hws
    rw [List.foldl_cons, adderStep_fold16 S hw, ih hrest, List.sum_cons, Nat.add_assoc]

/-! ## Words and their sum -/

/-- The words have 16 bits (43_checksum.md R180, R181). -/
theorem inetWords_le (s : List Byte) : ∀ w ∈ inetWords s, w ≤ 0xFFFF := by
  induction s using inetWords.induct with
  | case1 => exact fun _ h => absurd h List.not_mem_nil
  | case2 a =>
    have ha := a.isLt
    rw [inetWords_singleton, List.forall_mem_singleton]
    omega
  | case3 a b rest ih =>
    have ha := a.isLt
    have hb := b.isLt
    rw [inetWords_cons_cons, List.forall_mem_cons]
    exact ⟨by omega, ih⟩

/-- Only an all-zero sequence sums to 0. -/
theorem inetSum_eq_zero_iff (s : List Byte) : inetSum s = 0 ↔ ∀ b ∈ s, b = 0 := by
  have hbyte (b : Byte) : b = 0 ↔ b.toNat = 0 := BitVec.toNat_inj.symm
  induction s using inetWords.induct with
  | case1 => simp
  | case2 a =>
    rw [inetSum_singleton, List.forall_mem_singleton, hbyte]
    omega
  | case3 a b rest ih =>
    have hrest : (∀ b ∈ rest, b = 0) ↔ inetSum rest = 0 := ih.symm
    rw [inetSum_cons_cons, List.forall_mem_cons, List.forall_mem_cons, hbyte, hbyte, hrest]
    omega

/-- The checksum is 0xFFFF exactly when nothing was added up (43_checksum.md R184). -/
theorem inetChecksum_eq_ones_iff (s : List Byte) : inetChecksum s = 0xFFFF ↔ inetSum s = 0 := by
  have hle := fold16_le (inetSum s)
  have hones : (0xFFFF : Half).toNat = 65535 := rfl
  rw [← BitVec.toNat_inj, inetChecksum_toNat, hones, ← fold16_eq_zero_iff (inetSum s)]
  omega

/-- The checksum depends on the sum alone, folded (43_checksum.md R183). -/
theorem inetChecksum_congr {s t : List Byte} (h : fold16 (inetSum s) = fold16 (inetSum t)) :
    inetChecksum s = inetChecksum t := by
  rw [inetChecksum, inetChecksum, h]

/-- Two words that stand at even offsets and are swapped leave the sum as it was. -/
theorem inetSum_swap {pre mid : List Byte} (hpre : pre.length % 2 = 0) (hmid : mid.length % 2 = 0) (a b c d : Byte)
    (post : List Byte) :
    inetSum (pre ++ [a, b] ++ mid ++ [c, d] ++ post) = inetSum (pre ++ [c, d] ++ mid ++ [a, b] ++ post) := by
  simp only [List.append_assoc, inetSum_append hpre, inetSum_append hmid, List.cons_append, List.nil_append,
    inetSum_cons_cons]
  omega

/-! ## The command -/

/-- CHECKSUM when its range does not fit. -/
theorem execChecksum_of_not_fits {s : State} (h : s.bufSize < s.opBase + s.opLen) :
    execChecksum s = .next (s.complete .badLength) :=
  if_pos h

/-- The two bytes from which a 16-bit value is read are the bytes of this value (20_memory.md R62). -/
theorem State.pbufBytes_two_of_memRead {s : State} {a : Nat} {v : Half} (h : s.memRead a 2 = v.toNat) :
    s.pbufBytes a 2 = [hiByte v, loByte v] := by
  have hread := (State.memRead_two s a).symm.trans (h.trans (hiByte_mul_add_loByte v).symm)
  have hlo := (s.pbufByte (a + 1)).isLt
  have hlo' := (loByte v).isLt
  have hfst : s.pbufByte a = hiByte v := BitVec.eq_of_toNat_eq (by omega)
  have hsnd : s.pbufByte (a + 1) = loByte v := BitVec.eq_of_toNat_eq (by omega)
  rw [← hfst, ← hsnd]
  rfl

/-- A range of PBUF around a 16-bit field that is read as v, at offset k of the range. -/
theorem State.pbufBytes_eq_field {s : State} {a k n : Nat} {v : Half} (hn : k + 2 ≤ n)
    (h : s.memRead (a + k) 2 = v.toNat) :
    s.pbufBytes a n = s.pbufBytes a k ++ [hiByte v, loByte v] ++ s.pbufBytes (a + (k + 2)) (n - (k + 2)) := by
  rw [← State.pbufBytes_two_of_memRead h, ← State.pbufBytes_add, ← State.pbufBytes_add, Nat.add_sub_cancel' hn]

end Sys2Proof.Machine
end

section
/-! The obligations on the Internet checksum and the command CHECKSUM (43_checksum.md). -/

namespace Sys2Proof.Machine

/-- Settles O26: the completion commits CSUM alone, and a BAD_LENGTH completion commits nothing. -/
theorem checksumWritesCsum : Obligations.ChecksumWritesCsum := fun _ =>
  ⟨fun hfit => ⟨_, execChecksum_of_fits hfit, readReg_csum_eq _, fun _ => rfl, rfl, rfl⟩, execChecksum_of_not_fits⟩

/-- Settles O50: the closed form is the 16-bit value that the fold's residue and its being 0 determine. -/
theorem fold16ClosedForm : Obligations.Fold16ClosedForm :=
  ⟨rfl, fun _ => fold16_of_pos, fold16_mod, fun s => (inetChecksum_eq_ones_iff s).trans (inetSum_eq_zero_iff s)⟩

/-- Settles O51: the accumulator of the adder is at each word the fold of the sum so far. -/
theorem endAroundAdderComputesTheChecksum : Obligations.EndAroundAdderComputesTheChecksum := by
  intro s
  have hfold : (inetWords s).foldl adderStep 0 = fold16 (0 + (inetWords s).sum) :=
    foldl_adderStep_fold16 (inetWords_le s) 0
  rw [inetAdder, hfold, Nat.zero_add]
  rfl

/-- Settles O52: the sum with the checksum in place is a multiple of 0xFFFF that is not 0. -/
theorem storedChecksumMakesTheSumZero : Obligations.StoredChecksumMakesTheSumZero :=
  fun _ _ _ hpre hc => inetChecksum_stored hpre hc

/-- Settles O53: sums that are congruent and not 0 have one fold, and swapped words have one sum. -/
theorem congruentSumsAreNotDetected : Obligations.CongruentSumsAreNotDetected :=
  ⟨fun _ _ hmod hs ht => inetChecksum_congr (fold16_congr hmod hs ht),
    fun _ _ post a b c d hpre hmid => inetChecksum_congr (congrArg fold16 (inetSum_swap hpre hmid a b c d post))⟩

/-- Settles O55: the header in PBUF is a sequence with its checksum stored at offset 10, which is even. -/
theorem checksumVerifiesAnIpv4Header : Obligations.ChecksumVerifiesAnIpv4Header := by
  rintro s _ _ c rfl rfl - hlen hfit hc hread
  have hheader := State.pbufBytes_eq_field (k := 10) (by omega : 10 + 2 ≤ s.len.toNat) hread
  have hzero : inetChecksum (s.pbufBytes s.base.toNat s.len.toNat) = 0x0000 := by
    rw [hheader]
    exact inetChecksum_stored (by rw [State.pbufBytes_length]) hc
  refine ⟨_, execChecksum_of_fits hfit, rfl, ?_⟩
  rw [readReg_csum_eq]
  exact congrArg (BitVec.setWidth 32) hzero

end Sys2Proof.Machine
end

section
/-! SUPPORT. Result codes and sticky flags (60_exceptions.md): the code that each command can end with, what a step can do to
OVERRUN and BUSERR, and when a step stops. -/

namespace Sys2Proof.Machine

/-! ## Result codes -/

/-- The end of the byte range that a command needs in PBUF, in unbounded arithmetic (60_exceptions.md R201). -/
def State.rangeEnd (i : Instr) (s : State) : Nat :=
  match i with
  | .nop => 0
  | .encode => s.opBase + 8 + s.opLen
  | .decode | .checksum => s.opBase + s.opLen
  | .pack | .encodeAm => s.opBase + 12

/-- A command ends with BAD_LENGTH because its range does not fit, or it fits and ends with OK; only DECODE has further
checks (60_exceptions.md R200 to R203). -/
theorem State.effect_code_cases (i : Instr) (s : State) :
    (s.bufSize < s.rangeEnd i ∧ (s.effect i).code = .badLength) ∨
    (s.rangeEnd i ≤ s.bufSize ∧
      ((s.effect i).code = .ok ∨
       (i = .decode ∧ ((s.effect i).code = .truncated ∨ (s.effect i).code = .checksumMismatch)))) := by
  obtain hnot | hfit := Nat.lt_or_ge s.bufSize (s.rangeEnd i)
  · refine .inl ⟨hnot, ?_⟩
    cases i with
    | nop => exact absurd hnot (Nat.not_lt_zero _)
    | decode => exact State.decodeResult_of_not_fits hnot
    | encode | checksum | pack | encodeAm => exact congrArg Effect.code (if_pos hnot)
  · refine .inr ⟨hfit, ?_⟩
    cases i with
    | nop => exact .inl rfl
    | decode =>
      by_cases hshort : s.opLen < 20 ∨ s.opLen < s.datagramHlen + 8
      · exact .inr ⟨rfl, .inl (State.decodeResult_of_truncated hfit hshort)⟩
      · have hlong := State.decodeResult_of_long hfit (by omega) (by omega)
        by_cases hsum : s.calcChecksum = s.storedChecksum
        · exact .inl (hlong.trans (if_pos hsum))
        · exact .inr ⟨rfl, .inr (hlong.trans (if_neg hsum))⟩
    | encode | checksum | pack | encodeAm => exact .inl (congrArg Effect.code (if_neg (Nat.not_lt.mpr hfit)))

theorem State.effect_code_eq_badLength_iff (i : Instr) (s : State) :
    (s.effect i).code = .badLength ↔ s.bufSize < s.rangeEnd i := by
  obtain ⟨hnot, hc⟩ | ⟨hfit, hc | ⟨-, hc | hc⟩⟩ := s.effect_code_cases i
  · exact iff_of_true hc hnot
  all_goals exact iff_of_false (by simp [hc]) (Nat.not_lt.mpr hfit)

@[simp] theorem State.commit_result (e : Effect) (s : State) : (s.commit e).status.result = e.code := rfl

/-- A command ends with the code that it commits. -/
theorem exec_result_iff (i : Instr) (s : State) (code : ResultCode) :
    (∃ t, exec i s = .next t ∧ t.status.result = code) ↔ (s.effect i).code = code := by
  constructor
  · rintro ⟨t, ht, hres⟩
    obtain rfl := Host.Outcome.next.inj ((exec_eq_commit i s).symm.trans ht)
    exact hres
  · exact fun hc => ⟨_, exec_eq_commit i s, hc⟩

/-- A command raises BAD_LENGTH exactly when its range does not fit (60_exceptions.md R201). -/
theorem exec_badLength_iff (i : Instr) (s : State) :
    (∃ t, exec i s = .next t ∧ t.status.result = .badLength) ↔ s.bufSize < s.rangeEnd i :=
  (exec_result_iff i s .badLength).trans (s.effect_code_eq_badLength_iff i)

/-! ## OVERRUN and BUSERR -/

@[simp] theorem State.notPerformed_irq (d : Dir) (s : State) : (s.notPerformed d).irq = s.irq := by
  simp [State.irq]

/-- What a transaction can do to the two sticky flags: a write to STATUS acts on them by its bits 8 and 9, or they are kept,
or one of them is set and irq is kept (60_exceptions.md R206). -/
theorem State.transact_stickyFlags_cases (x : Txn) (s : State) :
    (x.dir = .write ∧ x.addr = Reg.status.windowOffset ∧ (s.transact x).status = s.status.written x.wdata) ∨
    ((s.transact x).status.overrun = s.status.overrun ∧ (s.transact x).status.buserr = s.status.buserr) ∨
    ((s.transact x).irq = s.irq ∧
      ((s.transact x).status = s.status.overran ∨ (s.transact x).status = s.status.busErred)) := by
  obtain ht | ⟨v, -, ht⟩ | ⟨r, hd, ha, ht⟩ | ⟨i, n, -, -, -, ht⟩ := s.transact_cases x <;> rw [ht]
  · exact .inr (.inr ⟨s.notPerformed_irq _, .inr (s.notPerformed_status _)⟩)
  · exact .inr (.inl ⟨rfl, rfl⟩)
  · obtain hs | ⟨-, -, hs⟩ | ⟨rfl, hb, hs⟩ | ⟨rfl, hs⟩ | ⟨ho, hb, -⟩ := s.writeReg_status_cases r x.wdata
    · exact .inr (.inl (by simp [hs]))
    · exact .inr (.inl (by simp [hs]))
    · exact .inr (.inr ⟨by rw [State.writeReg_cmd_of_busy hb]; rfl, .inl hs⟩)
    · exact .inl ⟨hd, ha, hs⟩
    · rw [State.writeReg_operand_of_busy hb ho]
      exact .inr (.inr ⟨s.notPerformed_irq _, .inr (s.notPerformed_status _)⟩)
  · exact .inr (.inl ⟨rfl, rfl⟩)

/-- What a step can do to the two sticky flags: it releases rst, it is a write to STATUS, or as for a transaction. -/
theorem step_stickyFlags_cases {s t : State} (h : step s = .next t) :
    ((s.rst = true ∧ ∃ rest, s.inbox = .rst false :: rest) ∧ t = s.popped.released) ∨
    (∃ x, s.nextTxn = some x ∧ x.dir = .write ∧ x.addr = Reg.status.windowOffset ∧
      t.status = s.status.written x.wdata) ∨
    (t.status.overrun = s.status.overrun ∧ t.status.buserr = s.status.buserr) ∨
    (t.irq = s.irq ∧ (t.status = s.status.overran ∨ t.status = s.status.busErred)) := by
  obtain ⟨_, rfl, ⟨-, -, -, hc⟩ | ⟨-, rfl⟩ | ⟨x, hx, -, rfl⟩ | ⟨l, rest, hi, rfl⟩⟩ := step_cases h
  · obtain ⟨e, he, -⟩ := engineCommand_commits s.popped
    obtain rfl := Host.Outcome.next.inj (he.symm.trans hc)
    exact .inr (.inr (.inl ⟨rfl, rfl⟩))
  · exact .inr (.inr (.inl ⟨rfl, rfl⟩))
  · obtain ⟨hd, ha, hs⟩ | hkept := s.popped.transact_stickyFlags_cases x
    · exact .inr (.inl ⟨x, hx, hd, ha, hs⟩)
    · exact .inr (.inr hkept)
  · obtain ⟨hr, rfl, ht⟩ | ⟨-, ht⟩ := s.popped.drivePin_cases l
    · exact .inl ⟨⟨hr, rest, hi⟩, ht⟩
    · exact .inr (.inr (.inl (by simp [ht])))

/-! ## irq -/

/-- CONFIG holds IE in bit 0 (10_state.md R25). -/
theorem ConfigReg.word_ie (c : ConfigReg) : c.word.getLsbD 0 = c.ie :=
  getLsbD_eq_of_toNat (by rw [ConfigReg.word_toNat]; cases c.ie <;> rfl)

/-! ## When a step stops -/

/-- The engine's turn never stops. -/
theorem engineTurn_answers_next (s : State) : ∃ t, engineTurn s = .next t := by
  unfold engineTurn
  split
  · obtain ⟨e, he, -⟩ := engineCommand_commits s
    exact ⟨_, he⟩
  · exact ⟨_, rfl⟩

theorem hostTransaction_of_reset {s : State} (hr : s.rst = true) (x : Txn) :
    hostTransaction x s = .refused .transactionDuringReset :=
  if_pos hr

theorem hostTransaction_of_released {s : State} (hr : s.rst = false) (x : Txn) :
    hostTransaction x s = .next (s.transact x) := by
  simp [hostTransaction, hr]

/-- An event that reaches the block is the host transaction that it reaches it with (20_memory.md R61). -/
theorem handleEvent_of_reaches {e : Event} {x : Txn} (h : e.reaches = some x) (s : State) :
    handleEvent e s = hostTransaction x s := by
  cases e with
  | txn y => cases h; rfl
  | access a d z w =>
    have hw : windowTxn a d z w = some x := h
    simp only [handleEvent, hw]
  | engine => cases h
  | rst l => cases h

/-- An event that does not reach the block never stops. -/
theorem handleEvent_answers_next {e : Event} (h : e.reaches = none) (s : State) : ∃ t, handleEvent e s = .next t := by
  cases e with
  | txn y => cases h
  | access a d z w =>
    have hw : windowTxn a d z w = none := h
    exact ⟨s, by simp only [handleEvent, hw]⟩
  | engine => exact engineTurn_answers_next s
  | rst l => exact ⟨_, rfl⟩

/-- A step answers a next state, unless its event reaches the block during reset: then it is refused
(70_reset_and_hazards.md R230). -/
theorem step_answers_or_refuses (s : State) :
    ((∃ t, step s = .next t) ∧ ¬(s.rst = true ∧ ∃ x, s.nextTxn = some x)) ∨
    (step s = .refused .transactionDuringReset ∧ s.rst = true ∧ ∃ x, s.nextTxn = some x) := by
  cases hi : s.inbox with
  | nil => exact .inl ⟨step_of_nil hi ▸ engineTurn_answers_next s, by simp [State.nextTxn, hi]⟩
  | cons e rest =>
    have hstep : step s = handleEvent e s.popped := by simp [step, hi]
    have hnext : s.nextTxn = e.reaches := by simp [State.nextTxn, hi]
    rw [hstep, hnext]
    cases he : e.reaches with
    | none => exact .inl ⟨handleEvent_answers_next he _, by simp⟩
    | some x =>
      rw [handleEvent_of_reaches he]
      cases hr : s.rst with
      | false => exact .inl ⟨⟨_, hostTransaction_of_released (s := s.popped) hr x⟩, by simp⟩
      | true => exact .inr ⟨hostTransaction_of_reset (s := s.popped) hr x, rfl, x, rfl⟩

end Sys2Proof.Machine
end

section
/-! The obligations on result codes, irq and the sticky flags (60_exceptions.md). -/

namespace Sys2Proof.Machine

/-- Settles O19: the code that a command commits is OK, BAD_LENGTH, or one of the two codes of DECODE, and NOP needs no
range. -/
theorem resultCodesByCommand : Obligations.ResultCodesByCommand := by
  refine fun i s => ⟨_, exec_eq_commit i s, ?_⟩
  rw [State.commit_result]
  obtain ⟨hnot, hc⟩ | ⟨-, hc | ⟨rfl, hc | hc⟩⟩ := s.effect_code_cases i
  · have hnop : i ≠ .nop := by
      rintro rfl
      exact Nat.not_lt_zero _ hnot
    simp [hc, hnop]
  all_goals simp [hc]

/-- Settles O20: for each command the end of its range is what is compared with BUF_SIZE. -/
theorem badLengthExactlyWhenTheRangeDoesNotFit : Obligations.BadLengthExactlyWhenTheRangeDoesNotFit := fun s =>
  ⟨exec_badLength_iff .encode s, exec_badLength_iff .pack s, exec_badLength_iff .encodeAm s, exec_badLength_iff .decode s,
    exec_badLength_iff .checksum s⟩

/-- Settles O47: of what a step can do to the flags, only the release of rst and a write to STATUS clear one, and neither of
these sets one. -/
theorem stickyFlagsStayUntilCleared : Obligations.StickyFlagsStayUntilCleared := by
  intro s t h
  obtain ⟨hr, rfl⟩ | ⟨x, hx, hd, ha, ht⟩ | ⟨ho, he⟩ | ⟨hirq, ht⟩ := step_stickyFlags_cases h
  · refine ⟨fun _ _ => .inr hr, fun _ _ => .inr hr, ?_⟩
    rintro (⟨-, ⟨⟩⟩ | ⟨-, ⟨⟩⟩)
  · rw [ht, Status.written_overrun, Status.written_buserr]
    exact ⟨fun hs hc => .inl ⟨x, hx, hd, ha, by simpa [hs] using hc⟩,
      fun hs hc => .inl ⟨x, hx, hd, ha, by simpa [hs] using hc⟩, by simp +contextual⟩
  · simp +contextual [ho, he]
  · refine ⟨fun hs hc => ?_, fun hs hc => ?_, fun _ => hirq⟩
    · obtain ht | ht := ht <;> simp [ht, hs] at hc
    · obtain ht | ht := ht <;> simp [ht, hs] at hc

/-- Settles O48: a step answers a next state or is refused, and there is no fault to raise. -/
theorem stepStopsOnlyForATransactionDuringReset : Obligations.StepStopsOnlyForATransactionDuringReset := by
  refine ⟨fun _ f => (nomatch f), fun s q => ?_⟩
  obtain ⟨⟨t, ht⟩, hnot⟩ | ⟨hrefused, hreset⟩ := step_answers_or_refuses s
  · rw [ht]
    exact iff_of_false (by simp) fun h => hnot h.2
  · rw [hrefused]
    exact ⟨fun h => ⟨(Host.Outcome.refused.inj h).symm, hreset⟩, fun h => congrArg _ h.1.symm⟩

/-- Settles O46: the two bits are the flags, every completion sets DONE, and each of the three writes clears a factor. -/
theorem irqFollowsDoneAndEnable : Obligations.IrqFollowsDoneAndEnable := by
  intro s
  simp only [State.transact_writeReg]
  refine ⟨?_, ?_, fun w hw => ?_, fun w hb => ?_, fun w hw => ⟨?_, rfl⟩⟩
  · obtain ⟨-, hdone, -⟩ := s.status.word_fields
    rw [State.readReg, State.readReg, hdone, ConfigReg.word_ie, State.irq]
  · obtain ⟨e, he, -⟩ := engineCommand_commits s
    exact ⟨s.commit e, he, Bool.true_and _⟩
  · simp [State.writeReg, State.irq, hw]
  · rw [State.writeReg_cmd_of_idle hb, State.irq, State.accept_status, Status.accepted_done, Bool.false_and]
  · exact (congrArg (s.status.done && ·) hw).trans (Bool.and_false _)

end Sys2Proof.Machine
end

section
/-! SUPPORT. The reset pin and the reset rule (70_reset_and_hazards.md R230 to R233): what the release leaves, what an event
does to the pin and to the order of events, and runs of a host that obeys the rule. -/

namespace Sys2Proof.Machine

/-! ## The reset state and the pin -/

theorem State.reset_readReg {r : Reg} (hr : r ≠ .bufsz) : State.reset.readReg r = 0 := by
  cases r with
  | bufsz => exact absurd rfl hr
  | _ => rfl

/-- The release gives every register but BUFSZ its reset value (70_reset_and_hazards.md R233). -/
theorem State.released_readReg {r : Reg} (hr : r ≠ .bufsz) (s : State) : s.released.readReg r = 0 := by
  have hreset : s.released.readReg r = State.reset.readReg r := by
    cases r with
    | bufsz => exact absurd rfl hr
    | _ => rfl
  rw [hreset, State.reset_readReg hr]

/-- With no byte written since reset, PBUF shows its free bytes (70_reset_and_hazards.md R231). -/
theorem State.pbufByte_of_unwritten {s : State} (h : s.pbuf = []) (a : Nat) :
    s.pbufByte a = Config.pbufInit s.epoch a := by
  simp [State.pbufByte, h, Memory.get?]

theorem State.drivePin_release {s : State} (hr : s.rst = true) : s.drivePin false = s.released := by
  simp [State.drivePin, hr]

theorem State.drivePin_assert (s : State) : s.drivePin true = { s with rst := true } := by
  simp [State.drivePin]

theorem State.drivePin_false_of_released {s : State} (hr : s.rst = false) : s.drivePin false = s := by
  cases s
  cases hr
  rfl

/-- A change of the pin as the next event. -/
theorem step_of_rst {s : State} {l : Bool} {rest : List Event} (hi : s.inbox = .rst l :: rest) :
    step s = .next (({ s with inbox := rest } : State).drivePin l) := by
  simp [step, hi, handleEvent, State.popped]

/-! ## What an event does to the pin and to the order of events -/

/-- The level of the pin rst after an event, when it was `level` before. -/
def Event.levelAfter (e : Event) (level : Bool) : Bool :=
  match e with
  | .rst l => l
  | .txn _ | .access _ _ _ _ | .engine => level

/-- The reset rule of the next event and of those behind it. -/
theorem obeysReset_cons (level : Bool) (e : Event) (rest : List Event) :
    obeysReset level (e :: rest) = ((!level || e.reaches.isNone) && obeysReset (e.levelAfter level) rest) := by
  cases e with
  | rst l => simp [obeysReset, Event.reaches, Event.levelAfter]
  | _ => rfl

theorem Event.levelAfter_of_ne_rst {e : Event} (h : ∀ l, e ≠ .rst l) (level : Bool) : e.levelAfter level = level := by
  cases e with
  | rst l => exact absurd rfl (h l)
  | _ => rfl

@[simp] theorem State.transact_rst (x : Txn) (s : State) : (s.transact x).rst = s.rst := by
  obtain h | ⟨_, -, h⟩ | ⟨_, -, -, h⟩ | ⟨_, _, -, -, -, h⟩ := s.transact_cases x <;> simp [h]

@[simp] theorem State.transact_inbox (x : Txn) (s : State) : (s.transact x).inbox = s.inbox := by
  obtain h | ⟨_, -, h⟩ | ⟨_, -, -, h⟩ | ⟨_, _, -, -, -, h⟩ := s.transact_cases x <;> simp [h]

/-- A host transaction that is not refused is performed beside a released pin. -/
theorem hostTransaction_next {x : Txn} {s t : State} (h : hostTransaction x s = .next t) : t = s.transact x := by
  unfold hostTransaction at h
  split at h
  · cases h
  · cases h; rfl

/-- The engine's turn answers a next state with the same pin and events; the engine is IDLE after it, unless rst holds a
running command back (40_dispatch.md R113, 70_reset_and_hazards.md R231). -/
theorem engineTurn_next (s : State) :
    ∃ t, engineTurn s = .next t ∧ t.status.busy = (s.status.busy && s.rst) ∧ t.rst = s.rst ∧ t.inbox = s.inbox := by
  obtain ⟨hb, hr⟩ | hoff : (s.status.busy = true ∧ s.rst = false) ∨ (s.status.busy = false ∨ s.rst = true) := by
    cases s.status.busy <;> cases s.rst <;> simp
  · obtain ⟨e, he, -⟩ := engineCommand_commits s
    refine ⟨_, (engineTurn_of_busy hr hb).trans he, ?_, rfl, rfl⟩
    rw [hr, Bool.and_false]
    rfl
  · refine ⟨s, engineTurn_of_disabled hoff, ?_, rfl, rfl⟩
    obtain h | h := hoff <;> simp [h]

/-- An event sets the pin as it says, and adds nothing to the events still to come. -/
theorem handleEvent_next {e : Event} {s t : State} (h : handleEvent e s = .next t) :
    t.rst = e.levelAfter s.rst ∧ t.inbox = s.inbox := by
  cases hx : e.reaches with
  | some x =>
    rw [handleEvent_of_reaches hx] at h
    have hl : e.levelAfter s.rst = s.rst := Event.levelAfter_of_ne_rst (by rintro l rfl; cases hx) _
    rw [hostTransaction_next h, hl]
    simp
  | none =>
    cases e with
    | txn x => cases hx
    | access a d z w =>
      have hw : windowTxn a d z w = none := hx
      simp only [handleEvent, hw] at h
      cases h
      exact ⟨rfl, rfl⟩
    | engine =>
      obtain ⟨u, hu, -, hr, hin⟩ := engineTurn_next s
      obtain rfl := Host.Outcome.next.inj (hu.symm.trans h)
      exact ⟨hr, hin⟩
    | rst l =>
      cases h
      obtain ⟨-, rfl, hp⟩ | ⟨-, hp⟩ := s.drivePin_cases l <;> rw [hp] <;> exact ⟨rfl, rfl⟩

/-! ## Steps of a host that obeys the reset rule -/

/-- A step with an event left takes that event. -/
theorem step_of_cons {s : State} {e : Event} {rest : List Event} (hi : s.inbox = e :: rest) :
    step s = handleEvent e { s with inbox := rest } := by
  simp [step, hi, State.popped]

/-- A host that obeys the reset rule does not reach the block while rst is asserted. -/
theorem State.nextTxn_of_hostObeysReset {s : State} (h : s.hostObeysReset = true) (hr : s.rst = true) :
    s.nextTxn = none := by
  cases hi : s.inbox with
  | nil => simp [State.nextTxn, hi]
  | cons e rest =>
    rw [State.hostObeysReset, hi, obeysReset_cons, hr] at h
    have hnone : e.reaches.isNone = true := (Bool.and_eq_true_iff.mp h).1
    simpa [State.nextTxn, hi] using hnone

/-- Such a host gets an answer to its next event, and goes on obeying the rule. -/
theorem State.hostObeysReset_step {s : State} (h : s.hostObeysReset = true) :
    ∃ t, step s = .next t ∧ t.hostObeysReset = true := by
  obtain ⟨⟨t, ht⟩, -⟩ | ⟨-, hr, x, hx⟩ := step_answers_or_refuses s
  · refine ⟨t, ht, ?_⟩
    cases hi : s.inbox with
    | nil =>
      obtain ⟨u, hu, -, -, hin⟩ := engineTurn_next s
      rw [step_of_nil hi] at ht
      obtain rfl := Host.Outcome.next.inj (hu.symm.trans ht)
      rw [State.hostObeysReset, hin, hi]
      rfl
    | cons e rest =>
      rw [step_of_cons hi] at ht
      obtain ⟨hr, hin⟩ := handleEvent_next ht
      rw [State.hostObeysReset, hi, obeysReset_cons, Bool.and_eq_true] at h
      rw [State.hostObeysReset, hr, hin]
      exact h.2
  · rw [State.nextTxn_of_hostObeysReset h hr] at hx
    cases hx

/-- With rst released, an event that leaves the pin alone is answered, and the pin stays released. -/
theorem step_of_released {s : State} {e : Event} {rest : List Event} (hr : s.rst = false) (hi : s.inbox = e :: rest)
    (he : ∀ l, e ≠ .rst l) : ∃ t, step s = .next t ∧ t.rst = false ∧ t.inbox = rest := by
  obtain ⟨⟨t, ht⟩, -⟩ | ⟨-, hr', -⟩ := step_answers_or_refuses s
  · have hev := ht
    rw [step_of_cons hi] at hev
    obtain ⟨hrst, hin⟩ := handleEvent_next hev
    exact ⟨t, ht, by rw [hrst, Event.levelAfter_of_ne_rst he]; exact hr, hin⟩
  · rw [hr] at hr'
    cases hr'

end Sys2Proof.Machine
end

section
/-! SUPPORT. Weak fairness over a run of the block (70_reset_and_hazards.md R242). -/

namespace Sys2Proof.Machine

/-- With rst released, BUSY is what enables the completion (40_dispatch.md R113). -/
theorem State.completionEnabled_of_busy {s : State} (hb : s.status.busy = true) (hr : s.rst = false) :
    s.completionEnabled = true := by
  simp [State.completionEnabled, hb, hr]

/-- After the engine's turn in a run with rst released, the engine is IDLE. -/
theorem State.after_engine_idle {events : Nat → Event} {n : Nat} {s t u : State} (ht : s.after events n = .next t)
    (hr : t.rst = false) (he : events n = .engine) (hu : s.after events (n + 1) = .next u) : u.status.busy = false := by
  rw [State.after_succ ht, he, step_engine_event] at hu
  obtain ⟨v, hv, hb, -⟩ := engineTurn_next { t with inbox := [] }
  obtain rfl := Host.Outcome.next.inj (hv.symm.trans hu)
  rw [hb]
  exact (congrArg _ hr).trans (Bool.and_false _)

/-- A weakly fair run is not BUSY with rst released for ever: the completion would be enabled, and so taken. -/
theorem State.weaklyFair.not_busy_for_ever {events : Nat → Event} {s : State} (hfair : s.weaklyFair events) (n : Nat) :
    ¬∀ m, n ≤ m → ∃ t, s.after events m = .next t ∧ t.status.busy = true ∧ t.rst = false := by
  intro hbusy
  obtain ⟨m, hm, he⟩ := hfair n fun m hm => by
    obtain ⟨t, ht, hb, hr⟩ := hbusy m hm
    exact ⟨t, ht, State.completionEnabled_of_busy hb hr⟩
  obtain ⟨t, ht, -, hr⟩ := hbusy m hm
  obtain ⟨u, hu, hb, -⟩ := hbusy (m + 1) (by omega)
  rw [State.after_engine_idle ht hr he hu] at hb
  cases hb

/-- While no event drives rst, a run never stops and rst stays released. -/
theorem State.after_released {events : Nat → Event} {s : State} (hr : s.rst = false) (he : ∀ n l, events n ≠ .rst l)
    (n : Nat) : ∃ t, s.after events n = .next t ∧ t.rst = false := by
  induction n with
  | zero => exact ⟨s, rfl, hr⟩
  | succ n ih =>
    obtain ⟨t, ht, hrt⟩ := ih
    obtain ⟨u, hu, hru, -⟩ := step_of_released (s := { t with inbox := [events n] }) hrt rfl (he n)
    exact ⟨u, (State.after_succ ht).trans hu, hru⟩

end Sys2Proof.Machine
end

section
/-! SUPPORT. The `wait` loop of 30_encoding.md R102: where the host can be in it, what its turn and the engine's turn do there,
and how many turns of the host lead out of it once the engine is IDLE. -/

namespace Sys2Proof.Machine

/-! ## The operations of the loop -/

theorem labelIndex_append {pre : List HostOp} {l : Nat} (h : HostOp.label l ∉ pre) (rest : List HostOp) :
    labelIndex (pre ++ .label l :: rest) l = pre.length := by
  induction pre with
  | nil => exact if_pos rfl
  | cons op pre ih =>
    obtain ⟨hop, hpre⟩ := not_or.mp (mt List.mem_cons.mpr h)
    simp [labelIndex, Ne.symm hop, ih hpre]

/-- The operation of a part of a program. -/
theorem getElem?_of_part {pre ops post : List HostOp} {k : Nat} (hk : k < ops.length) :
    (pre ++ ops ++ post)[pre.length + k]? = ops[k]? := by
  rw [List.append_assoc, List.getElem?_append_right (by omega), Nat.add_sub_cancel_left, List.getElem?_append_left hk]

/-- The temporary of a read holds what the read has returned. -/
theorem HostRun.temp_answered_rdReg (reg : Reg) (t : Nat) (s : State) (r : HostRun) :
    (r.answered (.rdReg reg t) s).temp t = s.rdata := by
  simp [HostRun.answered, HostRun.temp, HostOp.dest]

theorem HostRun.hostTurn_label {r : HostRun} {l : Nat} (h : r.prog[r.pc]? = some (.label l)) :
    r.hostTurn = .next { r with pc := r.pc + 1 } := by
  simp [HostRun.hostTurn, h, HostOp.txn]

theorem HostRun.hostTurn_branch {r : HostRun} {t k l : Nat} {b : Bool} (h : r.prog[r.pc]? = some (.branch t k b l)) :
    r.hostTurn = .next { r with pc := if (r.temp t).getLsbD k = b then labelIndex r.prog l else r.pc + 1 } := by
  simp [HostRun.hostTurn, h, HostOp.txn]

theorem HostRun.hostTurn_rdReg {r : HostRun} {reg : Reg} {t : Nat} (h : r.prog[r.pc]? = some (.rdReg reg t))
    (hr : r.ipc.rst = false) :
    r.hostTurn = .next (r.answered (.rdReg reg t) (r.ipc.returnRead (r.ipc.readReg reg))) := by
  simp [HostRun.hostTurn, h, HostOp.txn, hostTransaction_of_released hr]

/-! ## Places in the loop -/

/-- Where a host is in a `wait`: before its label, before its read of STATUS, before its branch with bit 0 of the polled
temporary as given, or behind the loop. -/
inductive WaitPlace where
  | label
  | poll
  | branch (polled : Bool)
  | behind

/-- The operation of the loop that the place is before. -/
def WaitPlace.offset (p : WaitPlace) : Nat :=
  match p with
  | .label => 0
  | .poll => 1
  | .branch _ => 2
  | .behind => 3

/-- Every place in the loop is before one of its three operations. -/
theorem WaitPlace.offset_lt {p : WaitPlace} (hp : p ≠ .behind) : p.offset < 3 := by
  cases p with
  | label => decide
  | poll => decide
  | branch polled => exact Nat.lt_succ_self 2
  | behind => exact absurd rfl hp

/-- Where a turn of the host leads from a place in the loop, beside an engine with the given BUSY. -/
def WaitPlace.next (busy : Bool) (p : WaitPlace) : WaitPlace :=
  match p with
  | .label => .poll
  | .poll => .branch busy
  | .branch true => .label
  | .branch false => .behind
  | .behind => .behind

/-- How many turns of the host lead from a place out of the loop when the engine is IDLE. -/
def WaitPlace.turnsLeft (p : WaitPlace) : Nat :=
  match p with
  | .label => 3
  | .poll => 2
  | .branch true => 4
  | .branch false => 1
  | .behind => 0

/-- A turn of the host beside an IDLE engine brings it nearer to the end of the loop. -/
theorem WaitPlace.turnsLeft_next_lt {p : WaitPlace} (hp : p ≠ .behind) : (p.next false).turnsLeft < p.turnsLeft := by
  cases p with
  | branch polled => cases polled <;> decide
  | behind => exact absurd rfl hp
  | _ => decide

/-- What a place says of bit 0 of the polled temporary and of BUSY. Within the loop nothing raises BUSY, so the engine of a
host that has read BUSY = 0 stays IDLE. -/
def WaitPlace.Polled (p : WaitPlace) (bit busy : Bool) : Prop :=
  match p with
  | .label => True
  | .poll => True
  | .branch polled => bit = polled ∧ (busy = true → polled = true)
  | .behind => bit = false ∧ busy = false

theorem WaitPlace.Polled.of_idle {p : WaitPlace} {bit busy : Bool} (h : p.Polled bit busy) : p.Polled bit false := by
  cases p with
  | label => trivial
  | poll => trivial
  | branch polled => exact ⟨h.1, nofun⟩
  | behind => exact ⟨h.1, rfl⟩

/-- The host is at a place of the `wait` with label `l` and temporary `t` that stands between `pre` and `post`, beside a block
whose rst is released. -/
structure HostRun.AtWait (pre post : List HostOp) (l t : Nat) (p : WaitPlace) (r : HostRun) : Prop where
  prog : r.prog = pre ++ HostOp.wait l t ++ post
  pc : r.pc = pre.length + p.offset
  released : r.ipc.rst = false
  polled : p.Polled ((r.temp t).getLsbD 0) r.ipc.status.busy

section
variable {pre post : List HostOp} {l t : Nat} {p : WaitPlace} {r : HostRun} {schedule : Nat → Bool}

/-- The next operation of a host in the loop. -/
theorem HostRun.AtWait.getElem?_pc (h : r.AtWait pre post l t p) (hp : p ≠ .behind) :
    r.prog[r.pc]? = (HostOp.wait l t)[p.offset]? := by
  rw [h.prog, h.pc]
  exact getElem?_of_part (WaitPlace.offset_lt hp)

/-- The host's turn in the loop leads to the next place and keeps BUSY. -/
theorem HostRun.AtWait.hostTurn (h : r.AtWait pre post l t p) (hl : HostOp.label l ∉ pre) (hp : p ≠ .behind) :
    ∃ q, r.turn false = .next q ∧ q.AtWait pre post l t (p.next r.ipc.status.busy) ∧
      q.ipc.status.busy = r.ipc.status.busy := by
  cases p with
  | label =>
    have hop : r.prog[r.pc]? = some (.label l) := h.getElem?_pc hp
    exact ⟨_, HostRun.hostTurn_label hop, ⟨h.prog, congrArg (· + 1) h.pc, h.released, trivial⟩, rfl⟩
  | poll =>
    have hop : r.prog[r.pc]? = some (.rdReg .status t) := h.getElem?_pc hp
    refine ⟨_, HostRun.hostTurn_rdReg hop h.released, ⟨h.prog, congrArg (· + 1) h.pc, h.released, ?_, id⟩, rfl⟩
    rw [HostRun.temp_answered_rdReg]
    exact r.ipc.status.word_fields.1
  | branch polled =>
    have hop : r.prog[r.pc]? = some (.branch t 0 true l) := h.getElem?_pc hp
    obtain ⟨hbit, hbusy⟩ := h.polled
    refine ⟨_, HostRun.hostTurn_branch hop, ?_, rfl⟩
    cases polled with
    | true =>
      refine ⟨h.prog, ?_, h.released, trivial⟩
      have hi : labelIndex r.prog l = pre.length := by
        rw [h.prog, List.append_assoc]
        exact labelIndex_append hl _
      exact (if_pos hbit).trans hi
    | false =>
      refine ⟨h.prog, ?_, h.released, hbit, Bool.eq_false_iff.mpr fun hb => nomatch hbusy hb⟩
      exact (if_neg (by rw [hbit]; decide)).trans (congrArg (· + 1) h.pc)
  | behind => exact absurd rfl hp

/-- The engine's turn keeps the host's place and leaves the engine IDLE. -/
theorem HostRun.AtWait.engineTurn (h : r.AtWait pre post l t p) :
    ∃ q, r.turn true = .next q ∧ q.AtWait pre post l t p ∧ q.ipc.status.busy = false := by
  obtain ⟨s, hs, hb, hr, -⟩ := engineTurn_next r.ipc
  have hidle : s.status.busy = false := by rw [hb, h.released, Bool.and_false]
  refine ⟨{ r with ipc := s }, by simp [HostRun.turn, hs], ⟨h.prog, h.pc, hr.trans h.released, ?_⟩, hidle⟩
  show p.Polled _ s.status.busy
  rw [hidle]
  exact h.polled.of_idle

/-! ## Fair runs -/

/-- A run in which the host has the next turn. -/
theorem HostRun.AtWait.after_host {r₀ : HostRun} {n : Nat} (h : r.AtWait pre post l t p) (hl : HostOp.label l ∉ pre)
    (hp : p ≠ .behind) (hr : r₀.after schedule n = .next r) (he : schedule n = false) :
    ∃ q, r₀.after schedule (n + 1) = .next q ∧ q.AtWait pre post l t (p.next r.ipc.status.busy) ∧
      q.ipc.status.busy = r.ipc.status.busy := by
  rw [HostRun.after_succ hr, he]
  exact h.hostTurn hl hp

/-- A run in which the engine has the next turn. -/
theorem HostRun.AtWait.after_engine {r₀ : HostRun} {n : Nat} (h : r.AtWait pre post l t p)
    (hr : r₀.after schedule n = .next r) (he : schedule n = true) :
    ∃ q, r₀.after schedule (n + 1) = .next q ∧ q.AtWait pre post l t p ∧ q.ipc.status.busy = false := by
  rw [HostRun.after_succ hr, he]
  exact h.engineTurn

/-- Weak fairness: beside a host in the loop the engine becomes IDLE, because the host does not leave the loop before, and
so the completion would stay enabled. -/
theorem HostRun.AtWait.becomes_idle (h : r.AtWait pre post l t p) (hl : HostOp.label l ∉ pre) (hfair : r.Fair schedule) :
    ∃ n q p', r.after schedule n = .next q ∧ q.AtWait pre post l t p' ∧ q.ipc.status.busy = false := by
  by_contra hne
  have hbusy : ∀ {n q p'}, r.after schedule n = .next q → q.AtWait pre post l t p' → q.ipc.status.busy = true :=
    fun hq hat => eq_true_of_ne_false fun hb => hne ⟨_, _, _, hq, hat, hb⟩
  have hwait : ∀ n, ∃ q p', r.after schedule n = .next q ∧ q.AtWait pre post l t p' := by
    intro n
    induction n with
    | zero => exact ⟨r, p, rfl, h⟩
    | succ n ih =>
      obtain ⟨q, p', hq, hat⟩ := ih
      cases he : schedule n with
      | true =>
        obtain ⟨u, hu, hatu, -⟩ := hat.after_engine hq he
        exact ⟨u, p', hu, hatu⟩
      | false =>
        have hp : p' ≠ .behind := by
          rintro rfl
          exact Bool.false_ne_true (hat.polled.2.symm.trans (hbusy hq hat))
        obtain ⟨u, hu, hatu, -⟩ := hat.after_host hl hp hq he
        exact ⟨u, _, hu, hatu⟩
  obtain ⟨m, -, he⟩ := hfair.engine 0 fun m _ => by
    obtain ⟨q, p', hq, hat⟩ := hwait m
    exact ⟨q, hq, State.completionEnabled_of_busy (hbusy hq hat) hat.released⟩
  obtain ⟨q, p', hq, hat⟩ := hwait m
  obtain ⟨u, hu, hatu, hb⟩ := hat.after_engine hq he
  exact hne ⟨m + 1, u, p', hu, hatu, hb⟩

/-- A host in the loop beside an IDLE engine comes to the next place at its own next turn: the engine's turns before it change
neither its place nor BUSY. -/
theorem HostRun.AtWait.comes_to_next {r₀ : HostRun} {n k : Nat} (h : r.AtWait pre post l t p) (hl : HostOp.label l ∉ pre)
    (hp : p ≠ .behind) (hr : r₀.after schedule n = .next r) (hidle : r.ipc.status.busy = false)
    (hhost : schedule (n + k) = false) :
    ∃ m q, r₀.after schedule m = .next q ∧ q.AtWait pre post l t (p.next false) ∧ q.ipc.status.busy = false := by
  induction k generalizing n r with
  | zero =>
    obtain ⟨q, hq, hat, hb⟩ := h.after_host hl hp hr hhost
    exact ⟨n + 1, q, hq, hidle ▸ hat, hb.trans hidle⟩
  | succ k ih =>
    cases he : schedule n with
    | false =>
      obtain ⟨q, hq, hat, hb⟩ := h.after_host hl hp hr he
      exact ⟨n + 1, q, hq, hidle ▸ hat, hb.trans hidle⟩
    | true =>
      obtain ⟨q, hq, hat, hb⟩ := h.after_engine hr he
      exact ih hat hq hb (by rwa [Nat.add_right_comm])

/-- A host in the loop beside an IDLE engine comes out of it, as it has turns for ever. -/
theorem HostRun.AtWait.leaves_of_idle {r₀ : HostRun} {n : Nat} (h : r.AtWait pre post l t p) (hl : HostOp.label l ∉ pre)
    (hfair : r₀.Fair schedule) (hr : r₀.after schedule n = .next r) (hidle : r.ipc.status.busy = false) :
    ∃ m q, r₀.after schedule m = .next q ∧ q.AtWait pre post l t .behind := by
  induction hd : p.turnsLeft using Nat.strong_induction_on generalizing p r n with
  | _ d ih =>
    by_cases hp : p = .behind
    · exact ⟨n, r, hr, hp ▸ h⟩
    · obtain ⟨m, hm, hhost⟩ := hfair.host n
      obtain ⟨k, rfl⟩ := Nat.exists_eq_add_of_le hm
      obtain ⟨m', q, hq, hat, hb⟩ := h.comes_to_next hl hp hr hidle hhost
      exact ih _ (hd ▸ WaitPlace.turnsLeft_next_lt hp) hat hq hb rfl

end
end Sys2Proof.Machine
end

section
/-! The obligations on reset, hazards and liveness (70_reset_and_hazards.md). -/

namespace Sys2Proof.Machine

/-- Settles O3: each register's fields are 0 at reset, and no byte has been written. -/
theorem resetStateReadsZero : Obligations.ResetStateReadsZero :=
  ⟨fun _ => State.reset_readReg, rfl, rfl, rfl, fun a => State.pbufByte_of_unwritten rfl a⟩

/-- Settles O4: the state after the step is the release of the state before it, or that state with the pin driven. -/
theorem releaseOfResetClearsEveryRegister : Obligations.ReleaseOfResetClearsEveryRegister := by
  refine ⟨fun s rest hr hi => ?_, fun s rest hi => ?_, fun s rest hr hi => ?_⟩
  · refine ⟨State.released { s with inbox := rest }, ?_, fun r hne => State.released_readReg hne _, rfl, rfl, rfl, rfl,
      fun a => State.pbufByte_of_unwritten rfl a⟩
    rw [step_of_rst hi, State.drivePin_release (s := { s with inbox := rest }) hr]
  · rw [step_of_rst hi, State.drivePin_assert]
  · rw [step_of_rst hi, State.drivePin_false_of_released (s := { s with inbox := rest }) hr]

/-- Settles O5: BUF_SIZE has its default, no byte of PBUF has been written, and the ten decode result registers are 0. -/
theorem invariantHoldsAtReset : Obligations.InvariantHoldsAtReset where
  bufSize := by decide
  pbufWf := Memory.wf_nil
  pbufInside := rfl
  busyDone := rfl
  hlen := by decide
  payload := Nat.zero_le _
  cls := .inl rfl

/-- Settles O49: by induction on the number of steps, each of which keeps the rule. -/
theorem obedientHostNeverStops : Obligations.ObedientHostNeverStops := by
  intro n
  induction n with
  | zero => exact fun s h => ⟨s, rfl, h⟩
  | succ n ih =>
    intro s h
    obtain ⟨u, hu, hobeys⟩ := State.hostObeysReset_step h
    rw [run_succ hu]
    exact ih u hobeys

/-- Settles O15: by induction on the events still to come; when none is left, the step is the engine's turn. -/
theorem acceptedCommandsComplete : Obligations.AcceptedCommandsComplete := by
  intro s hr he
  induction hi : s.inbox generalizing s with
  | nil =>
    obtain ⟨t, ht, hb, -, hin⟩ := engineTurn_next s
    refine ⟨t, run_succ ((step_of_nil hi).trans ht), ?_, hin.trans hi⟩
    rw [hb, hr, Bool.and_false]
  | cons e rest ih =>
    rw [hi] at he
    obtain ⟨u, hu, hru, hin⟩ := step_of_released hr hi fun l hl => he l (hl ▸ List.mem_cons_self)
    rw [List.length_cons, run_succ hu]
    exact ih u hru (fun l hl => he l (List.mem_cons_of_mem e (hin ▸ hl))) hin

/-- Settles O58: a run that stays BUSY contradicts weak fairness; with the pin left alone, a run that is never IDLE again stays
BUSY. -/
theorem noFairRunStaysBusy : Obligations.NoFairRunStaysBusy := by
  refine ⟨fun events s => State.weaklyFair.not_busy_for_ever, fun events s hr he hfair n => ?_⟩
  by_contra hne
  refine hfair.not_busy_for_ever n fun m hm => ?_
  obtain ⟨t, ht, hrt⟩ := State.after_released hr he m
  exact ⟨t, ht, eq_true_of_ne_false fun hb => hne ⟨m, t, hm, ht, hb⟩, hrt⟩

/-- Settles O59: the engine becomes IDLE while the host polls, and then the host's turns lead behind the loop. -/
theorem everyWaitLoopEnds : Obligations.EveryWaitLoopEnds := by
  intro pre post l t r schedule hprog hl hpc hr hfair
  have hstart : r.AtWait pre post l t .label := ⟨hprog, hpc, hr, trivial⟩
  obtain ⟨n, q, p, hq, hat, hidle⟩ := hstart.becomes_idle hl hfair
  obtain ⟨m, u, hu, hbehind⟩ := hat.leaves_of_idle hl hfair hq hidle
  obtain ⟨hbit, hbusy⟩ := hbehind.polled
  exact ⟨m, u, hu, hbehind.pc, hbit, hbusy⟩

end Sys2Proof.Machine
end
